-- ==== Sys2Proof/Word.lean ====
section
/-! DEFINITION. The words of base32_decoder: widths fixed by the spec (00_scope.md R4, 20_memory.md R48,
30_encoding.md R60, R64, R65). -/

namespace Sys2Proof

/-- One 8-bit byte or character (30_encoding.md R65). -/
abbrev Byte := BitVec 8

/-- A command word `cmd[66:0]` (30_encoding.md R60). -/
abbrev CmdWord := BitVec 67

/-- A response word `resp[167:0]` (30_encoding.md R64). -/
abbrev RespWord := BitVec 168

/-- The 64-bit unsigned counter (41_counter_packer.md R122). -/
abbrev Counter := BitVec 64

/-- A digest as its port carries it: 20 bytes, byte 0 in bits 159:152 (20_memory.md R46). -/
abbrev Digest := BitVec 160

/-- The 5-bit value of a symbol (30_encoding.md R66). -/
abbrev SymVal := BitVec 5

/-- One decimal digit of a code, BCD (44_decimal_formatter.md R157). -/
abbrev Digit := BitVec 4

/-- `KEY[0..9]`, index 0 the first decoded byte (10_state.md R12). -/
abbrev Key := Vector Byte 10

/-- `MSG[0..7]`, index 0 the most significant byte (10_state.md R14). -/
abbrev Msg := Vector Byte 8

end Sys2Proof
end

