-- ==== Sys2Proof/Syntax.lean ====
section
/-! DEFINITION. The instructions of base32_decoder: one constructor per row of spec/opcode_table.json (30_encoding.md R60, R64, R66). -/

namespace Sys2Proof

/-- The mode of a decode transaction (10_state.md R19). -/
inductive Mode where
  /-- 0: decode any string, bytes go to the `dec_byte` output. -/
  | generic
  /-- 1: validate and decode a secret into `KEY`. -/
  | secret
  deriving DecidableEq, Repr

/-- Format CMD rows (`nop` to `reserved7`), the format RESP row (`hmacResp`) and format SYM rows (`symA` to `invalid`).
A letter row carries its case bit, bit 5 of the character, which the row leaves open (30_encoding.md R67); the row `invalid` carries the
whole character. -/
inductive Instr where
  | nop
  | b32Start (mode : Mode)
  | b32Push (ch : Byte)
  | b32End
  | hotp (counter : Counter)
  | reserved5
  | reserved6
  | reserved7
  | hmacResp (len : Byte) (digest : Digest)
  | symA (lower : Bool)
  | symB (lower : Bool)
  | symC (lower : Bool)
  | symD (lower : Bool)
  | symE (lower : Bool)
  | symF (lower : Bool)
  | symG (lower : Bool)
  | symH (lower : Bool)
  | symI (lower : Bool)
  | symJ (lower : Bool)
  | symK (lower : Bool)
  | symL (lower : Bool)
  | symM (lower : Bool)
  | symN (lower : Bool)
  | symO (lower : Bool)
  | symP (lower : Bool)
  | symQ (lower : Bool)
  | symR (lower : Bool)
  | symS (lower : Bool)
  | symT (lower : Bool)
  | symU (lower : Bool)
  | symV (lower : Bool)
  | symW (lower : Bool)
  | symX (lower : Bool)
  | symY (lower : Bool)
  | symZ (lower : Bool)
  | sym2
  | sym3
  | sym4
  | sym5
  | sym6
  | sym7
  | pad
  | invalid (ch : Byte)
  deriving DecidableEq, Repr

end Sys2Proof
end

