-- ==== Sys2Proof/Machine/State.lean ====
section
/-! DEFINITION. The state of base32_decoder: the 15 registers of 10_state.md R10, what the outside presents, and the events recorded. -/

namespace Sys2Proof.Machine

/-- `PHASE` (10_state.md R20). Value 3 is never reached and is left out of the type (45_token_engine.md R178; log 6). -/
inductive Phase where
  /-- 0: no transaction open. -/
  | idle
  /-- 1: between `B32_START` and `B32_END`. -/
  | decoding
  /-- 2: a request is out and the response has not come. -/
  | waitHmac
  deriving DecidableEq, Repr

/-- The errors of 60_exceptions.md R191 that have a code; their codes are `errorCode` in Machine/Flags.lean. -/
inductive ErrorName where
  | invalidSecret
  | invalidCharacter
  | invalidPadding
  | keyDecodeFailure
  /-- Code 5: kept for the name, raised by nothing (R198). -/
  | formatError
  | contractViolation
  deriving DecidableEq, Repr

/-- The class of a character (30_encoding.md R66). -/
inductive CharClass where
  | sym (v : SymVal)
  | pad
  | invalid
  deriving DecidableEq, Repr

/-- The output events (20_memory.md R44). -/
inductive Event where
  /-- `EV_DEC_BYTE(b)`: a generic-mode decode completed one output byte. -/
  | decByte (b : Byte)
  /-- `EV_DEC_DONE(e)`: a `B32_END` was executed. -/
  | decDone (e : BitVec 4)
  /-- `EV_HMAC_REQ(k, m)`: a request goes to the HMAC unit. -/
  | hmacReq (k : Key) (m : Msg)
  /-- `EV_CODE_DONE(e)`: a code call ended. -/
  | codeDone (e : BitVec 4)
  deriving DecidableEq, Repr

/-- What the input ports of 20_memory.md R42 carry at one time. -/
structure PortSlot where
  rst : Bool
  cmdValid : Bool
  cmdOp : BitVec 3
  cmdArg : BitVec 64
  hmacRespValid : Bool
  hmacRespLen : Byte
  hmacRespDigest : Digest
  deriving DecidableEq, Repr

/-- The machine: the registers of 10_state.md R10 under their own names, then the model's two lists (log 1, log 2). -/
structure State where
  phase : Phase
  mode : Mode
  key : Vector Byte 10
  keyValid : Bool
  msg : Vector Byte 8
  codeD : Vector Digit 6
  codeBin : BitVec 20
  codeValid : Bool
  err : BitVec 4
  fault : Bool
  acc : BitVec 7
  nbits : BitVec 3
  gpos : BitVec 3
  nsym : BitVec 5
  nbytes : BitVec 4
  inputs : List PortSlot
  events : List Event
  deriving DecidableEq, Repr

/-- Reasons to stop with a fault. There is none: no rule of the spec stops the block (60_exceptions.md R190, R199, R203), so nobody raises
one (log 12). The spec's own `FAULT` bit and error codes are registers, not stops. -/
inductive Fault where
  deriving DecidableEq, Repr

/-- Reasons to refuse. -/
inductive Refusal where
  /-- An instruction without a meaning; raised by no arm of exec, because every row has its meaning. Safe: it would only stop the run. -/
  | notModelled (mnemonic : String)
  deriving DecidableEq, Repr

/-- What a step or an instruction answers. -/
abbrev Out := Host.Outcome State Fault Refusal

/-- The state right after reset (10_state.md R27, 70_reset_and_hazards.md R220); the two lists empty (log 1, log 2). -/
def State.reset : State where
  phase := .idle
  mode := .generic
  key := #v[0, 0, 0, 0, 0, 0, 0, 0, 0, 0]
  keyValid := false
  msg := #v[0, 0, 0, 0, 0, 0, 0, 0]
  codeD := #v[0, 0, 0, 0, 0, 0]
  codeBin := 0
  codeValid := false
  err := 0
  fault := false
  acc := 0
  nbits := 0
  gpos := 0
  nsym := 0
  nbytes := 0
  inputs := []
  events := []

end Sys2Proof.Machine
end

