-- ==== Sys2Proof/Machine/Flags.lean ====
section
/-! DEFINITION. Error codes (60_exceptions.md R191), the trailing-group test (40_base32_decoder.md R99) and the `STATUS` view
(10_state.md R21). -/

namespace Sys2Proof.Machine

/-- The code of an error, as `ERR` holds it (60_exceptions.md R191). -/
def errorCode : ErrorName → BitVec 4
  | .invalidSecret => 1
  | .invalidCharacter => 2
  | .invalidPadding => 3
  | .keyDecodeFailure => 4
  | .formatError => 5
  | .contractViolation => 6

/-- `GPOS in {1, 3, 6}` (40_base32_decoder.md R99). -/
def badTrailingGroup (gpos : BitVec 3) : Bool := gpos = 1 || gpos = 3 || gpos = 6

/-- `PHASE` as its 2-bit number (10_state.md R20). -/
def phaseBits : Phase → BitVec 2
  | .idle => 0
  | .decoding => 1
  | .waitHmac => 2

/-- `MODE` as its bit (10_state.md R19). -/
def modeBit : Mode → BitVec 1
  | .generic => 0
  | .secret => 1

/-- `STATUS[9:0]`: `ERR` 9:6, `FAULT` 5, `CODE_VALID` 4, `KEY_VALID` 3, `MODE` 2, `PHASE` 1:0 (10_state.md R21). -/
def statusWord (s : State) : BitVec 10 :=
  (s.err.setWidth 10 <<< 6) ||| ((BitVec.ofBool s.fault).setWidth 10 <<< 5)
    ||| ((BitVec.ofBool s.codeValid).setWidth 10 <<< 4) ||| ((BitVec.ofBool s.keyValid).setWidth 10 <<< 3)
    ||| ((modeBit s.mode).setWidth 10 <<< 2) ||| (phaseBits s.phase).setWidth 10

end Sys2Proof.Machine
end

