-- ==== Sys2Proof/Config.lean ====
section
/-! DEFINITION. What is fixed for the machine: the parameters P1 to P9 of 00_scope.md section 4 that a meaning uses, and the one open
parameter, the external function HMAC (92_eei_decisions.md D20, D36). -/

namespace Sys2Proof.Config

/-- P1, characters in a secret. -/
@[simp] abbrev secretLen : Nat := 16

/-- P4, digest bytes. -/
@[simp] abbrev digestLen : Nat := 20

/-- P6, the modulus 10^6. -/
@[simp] abbrev modulus : Nat := 1000000

/-- P7, seconds per TOTP step; used on the host side only. -/
@[simp] abbrev totpStep : Nat := 30

/-- P9, the function the external unit computes. Uninterpreted: "The model may assume nothing of it except that the answer depends on
key and message alone". It has no body, so every claim about it holds for every such function (log 4). -/
opaque hmac : Key → Msg → Digest

end Sys2Proof.Config
end

