-- ==== Sys2Proof/Machine/Operands.lean ====
section
/-! DEFINITION. The pure datapath: the class of a character (30_encoding.md R66), the shift-in of a symbol (40_base32_decoder.md R94), the
counter packer (41), the truncator (43) and the formatter (44). -/

namespace Sys2Proof.Machine

/-! ## Characters -/

/-- Case normalisation (30_encoding.md R67): 0x61 to 0x7A minus 0x20, no other byte changes. -/
def normaliseCase (ch : Byte) : Byte := if 0x61 ≤ ch ∧ ch ≤ 0x7A then ch - 0x20 else ch

/-- `classify(ch)` (30_encoding.md R66). -/
def classify (ch : Byte) : CharClass :=
  let c := normaliseCase ch
  if 0x41 ≤ c ∧ c ≤ 0x5A then .sym ((c - 0x41).setWidth 5)
  else if 0x32 ≤ c ∧ c ≤ 0x37 then .sym ((c - 0x32 + 26).setWidth 5)
  else if c = 0x3D then .pad
  else .invalid

/-! ## The shift-in of one symbol: `accept(v)`, 40_base32_decoder.md R94 -/

/-- `t = (ACC << 5) | v`, at most 12 bits. -/
def shiftedBits (acc : BitVec 7) (v : SymVal) : BitVec 12 := (acc.setWidth 12 <<< 5) ||| v.setWidth 12

/-- `n = NBITS + 5`. -/
def shiftedCount (nbits : BitVec 3) : Nat := nbits.toNat + 5

/-- The byte that completes, `t[n-1 : n-8]`, when `n >= 8`. -/
def completedByte (acc : BitVec 7) (nbits : BitVec 3) (v : SymVal) : Option Byte :=
  if 8 ≤ shiftedCount nbits then some ((shiftedBits acc v).extractLsb' (shiftedCount nbits - 8) 8) else none

/-- `ACC` after: the `n - 8` newest bits when a byte completes, else `t`. -/
def accAfter (acc : BitVec 7) (nbits : BitVec 3) (v : SymVal) : BitVec 7 :=
  if 8 ≤ shiftedCount nbits then
    (shiftedBits acc v &&& ((1#12 <<< (shiftedCount nbits - 8)) - 1)).setWidth 7
  else (shiftedBits acc v).setWidth 7

/-- `NBITS` after: `n - 8` when a byte completes, else `n`. -/
def nbitsAfter (nbits : BitVec 3) : BitVec 3 :=
  if 8 ≤ shiftedCount nbits then BitVec.ofNat 3 (shiftedCount nbits - 8) else BitVec.ofNat 3 (shiftedCount nbits)

/-! ## The counter packer -/

/-- `m[i] = c[63 - 8*i : 56 - 8*i]` (41_counter_packer.md R120). -/
def counterByte (c : Counter) (i : Nat) : Byte := c.extractLsb' (56 - 8 * i) 8

/-- `pack64be(c)` (41_counter_packer.md R120). -/
def pack64be (c : Counter) : Msg :=
  #v[counterByte c 0, counterByte c 1, counterByte c 2, counterByte c 3,
     counterByte c 4, counterByte c 5, counterByte c 6, counterByte c 7]

/-! ## The truncator -/

/-- `digest[i] = resp[8*(19-i)+7 : 8*(19-i)]` (30_encoding.md R64). -/
def digestByte (d : Digest) (i : Nat) : Byte := d.extractLsb' (8 * (19 - i)) 8

/-- `BE32(b0, b1, b2, b3)` (00_scope.md section 5). -/
def be32 (b0 b1 b2 b3 : Byte) : BitVec 32 :=
  (b0.setWidth 32 <<< 24) ||| (b1.setWidth 32 <<< 16) ||| (b2.setWidth 32 <<< 8) ||| b3.setWidth 32

/-- `offset = digest[19] & 0x0F` (43_dynamic_truncator.md R145). -/
def truncOffset (d : Digest) : Nat := (digestByte d 19 &&& 0x0F).toNat

/-- `raw32` (43_dynamic_truncator.md R146). -/
def raw32 (d : Digest) : BitVec 32 :=
  be32 (digestByte d (truncOffset d)) (digestByte d (truncOffset d + 1))
    (digestByte d (truncOffset d + 2)) (digestByte d (truncOffset d + 3))

/-- `truncate(digest) = raw32 & 0x7FFFFFFF`, 31 bits (43_dynamic_truncator.md R147, R148). -/
def truncate (d : Digest) : BitVec 31 := (raw32 d &&& 0x7FFFFFFF).setWidth 31

/-! ## The formatter -/

/-- `numericCode = binCode mod 1_000_000` (44_decimal_formatter.md R156). -/
def numericCode (binCode : BitVec 31) : BitVec 20 := BitVec.ofNat 20 (binCode.toNat % Config.modulus)

/-- `digit(n, i) = (n div 10^(5-i)) mod 10` (44_decimal_formatter.md R157). -/
def digit (n : BitVec 20) (i : Nat) : Digit := BitVec.ofNat 4 (n.toNat / 10 ^ (5 - i) % 10)

/-- The six digits, most significant first (44_decimal_formatter.md R158). -/
def digits (n : BitVec 20) : Vector Digit 6 :=
  #v[digit n 0, digit n 1, digit n 2, digit n 3, digit n 4, digit n 5]

/-! ## Lanes of the wide ports: byte 0 on top (20_memory.md R46) -/

/-- The number that bytes spell, first byte most significant (20_memory.md R45). -/
def bytesNumber (bs : List Byte) : Nat := bs.foldl (fun a b => a * 256 + b.toNat) 0

/-- The number that 4-bit digits spell in BCD, first digit most significant. -/
def bcdNumber (ds : List Digit) : Nat := ds.foldl (fun a d => a * 16 + d.toNat) 0

/-- `KEY[0] ∥ ... ∥ KEY[9]` (42_hmac_sha1_interface.md R132). -/
def keyLanes (k : Key) : BitVec 80 := BitVec.ofNat 80 (bytesNumber k.toList)

/-- `MSG[0] ∥ ... ∥ MSG[7]` (42_hmac_sha1_interface.md R132). -/
def msgLanes (m : Msg) : BitVec 64 := BitVec.ofNat 64 (bytesNumber m.toList)

/-- `CODE_D[0] ∥ ... ∥ CODE_D[5]` (10_state.md R26). -/
def bcdLanes (d : Vector Digit 6) : BitVec 24 := BitVec.ofNat 24 (bcdNumber d.toList)

end Sys2Proof.Machine
end

