-- ==== Sys2Proof/Machine/Ops.lean ====
section
/-! DEFINITION. The shared operations: what `raise`, `fault` and `emit` do, how a phase accepts or drops a transaction, the symbol intake
and the two endings of a call. The block has no trap: an error is recorded in `ERR`, a protocol violation in `FAULT`, and the way back is
the next call (60_exceptions.md R190, R196, R199, R201). -/

namespace Sys2Proof.Machine

/-! ## Errors, faults, events -/

/-- `raise <Error>`: `ERR <- code`, and nothing more (60_exceptions.md R196). -/
def raise (e : ErrorName) (s : State) : State := { s with err := errorCode e }

/-- The way an error goes away: the next call writes `ERR <- 0` (60_exceptions.md R201). -/
def clearError (s : State) : State := { s with err := 0 }

/-- `fault`: the transaction is dropped, `FAULT <- 1`, nothing else changes (60_exceptions.md R199). -/
def dropWithFault (s : State) : State := { s with fault := true }

/-- `emit EV` (20_memory.md R44). -/
def emit (ev : Event) (s : State) : State := { s with events := s.events ++ [ev] }

/-- A transaction in a phase that accepts it runs; in any other it is dropped before its operands are looked at
(45_token_engine.md R178, 60_exceptions.md R200 (b)). -/
def runIfAccepted (accepted : Bool) (run : State → State) (s : State) : Out :=
  .next (if accepted then run s else dropWithFault s)

/-! ## A decode transaction -/

/-- `ACC`, `NBITS`, `GPOS`, `NSYM`, `NBYTES <- 0` (40_base32_decoder.md R95). -/
def clearWorking (s : State) : State := { s with acc := 0, nbits := 0, gpos := 0, nsym := 0, nbytes := 0 }

/-- `KEY_VALID <- 0`, `KEY[i] <- 0` (40_base32_decoder.md R95). -/
def wipeKey (s : State) : State := { s with keyValid := false, key := #v[0, 0, 0, 0, 0, 0, 0, 0, 0, 0] }

/-- `B32_START mode` where it is accepted (40_base32_decoder.md R95). -/
def startDecode (m : Mode) (s : State) : State :=
  let opened := clearWorking (clearError { s with phase := .decoding, mode := m })
  match m with
  | .generic => opened
  | .secret => wipeKey opened

/-- The register part of `accept(v)` (40_base32_decoder.md R94); the byte it gives back is `completedByte` of the state before. -/
def acceptSymbol (v : SymVal) (s : State) : State :=
  { s with acc := accAfter s.acc s.nbits v, nbits := nbitsAfter s.nbits, gpos := s.gpos + 1 }

/-- `KEY[NBYTES] <- b; NBYTES <- NBYTES + 1` (40_base32_decoder.md R97). An index of 10 or more names no register (log 5). -/
def writeKeyByte (b : Byte) (s : State) : State :=
  { s with key := s.key.setIfInBounds s.nbytes.toNat b, nbytes := s.nbytes + 1 }

/-- A symbol in secret mode that is not the 17th (40_base32_decoder.md R97). -/
def takeSecretSymbol (v : SymVal) (s : State) : State :=
  let taken := { acceptSymbol v s with nsym := s.nsym + 1 }
  match completedByte s.acc s.nbits v with
  | some b => writeKeyByte b taken
  | none => taken

/-- `B32_PUSH` with `MODE = SECRET` and `ERR == 0` (40_base32_decoder.md R97). -/
def pushSecret (c : CharClass) (s : State) : State :=
  match c with
  | .sym v => if s.nsym = 16 then raise .invalidSecret s else takeSecretSymbol v s
  | .pad => raise .invalidSecret s
  | .invalid => raise .invalidSecret s

/-- `B32_PUSH` with `MODE = GENERIC` and `ERR == 0` (40_base32_decoder.md R98). -/
def pushGeneric (c : CharClass) (s : State) : State :=
  match c with
  | .sym v =>
    match completedByte s.acc s.nbits v with
    | some b => emit (.decByte b) (acceptSymbol v s)
    | none => acceptSymbol v s
  | .pad => s
  | .invalid => raise .invalidCharacter s

/-- A character in an open transaction: after the first error nothing happens (40_base32_decoder.md R96). -/
def pushOpen (c : CharClass) (s : State) : State :=
  if s.err = 0 then
    match s.mode with
    | .secret => pushSecret c s
    | .generic => pushGeneric c s
  else s

/-- A character of class `c` pushed in any phase (40_base32_decoder.md R96, 45_token_engine.md R178). -/
def pushClass (c : CharClass) (s : State) : Out := runIfAccepted (s.phase = .decoding) (pushOpen c) s

/-- `PHASE <- IDLE; emit EV_DEC_DONE(ERR after this step)` (40_base32_decoder.md R99, R100). -/
def closeDecode (s : State) : State := emit (.decDone s.err) { s with phase := .idle }

/-- `B32_END` with `MODE = GENERIC` (40_base32_decoder.md R99). -/
def endGeneric (s : State) : State :=
  closeDecode (if s.err = 0 ∧ badTrailingGroup s.gpos then raise .invalidPadding s else s)

/-- `B32_END` with `MODE = SECRET` (40_base32_decoder.md R100). -/
def endSecret (s : State) : State :=
  closeDecode
    (if s.err = 0 then
      if s.nsym = 16 then { s with keyValid := true } else raise .invalidSecret s
    else s)

/-- `B32_END` where it is accepted. -/
def endDecode (s : State) : State :=
  match s.mode with
  | .generic => endGeneric s
  | .secret => endSecret s

/-! ## A code call -/

/-- `HOTP counter` in `IDLE` with a valid key: the request (45_token_engine.md R171, 41_counter_packer.md R121,
42_hmac_sha1_interface.md R131). -/
def requestHmac (c : Counter) (s : State) : State :=
  emit (.hmacReq s.key (pack64be c)) { clearError s with codeValid := false, msg := pack64be c, phase := .waitHmac }

/-- `HOTP counter` where it is accepted (45_token_engine.md R171). -/
def startCall (c : Counter) (s : State) : State :=
  if s.keyValid then requestHmac c s
  else emit (.codeDone (errorCode .keyDecodeFailure)) (raise .keyDecodeFailure { s with codeValid := false })

/-- The code of a digest is stored and the call ends (42_hmac_sha1_interface.md R140, 44_decimal_formatter.md R158). -/
def storeCode (d : Digest) (s : State) : State :=
  emit (.codeDone 0)
    { s with codeD := digits (numericCode (truncate d)), codeBin := numericCode (truncate d), codeValid := true, phase := .idle }

/-- `HMAC_RESP len, digest` where it is accepted (42_hmac_sha1_interface.md R140). -/
def takeResponse (len : Byte) (d : Digest) (s : State) : State :=
  if len.toNat = Config.digestLen then storeCode d s
  else emit (.codeDone (errorCode .contractViolation)) (raise .contractViolation { s with phase := .idle })

/-! ## Reset -/

/-- `rst = 1`: every register at its reset value; what is still to be presented and what was recorded are no registers
(70_reset_and_hazards.md R220; log 1, log 2). -/
def applyReset (s : State) : State := { State.reset with inputs := s.inputs, events := s.events }

end Sys2Proof.Machine
end

