-- ==== Sys2Proof/Machine/Base32.lean ====
section
/-! DEFINITION. The meanings of the base32_decoder commands (40_base32_decoder.md). -/

namespace Sys2Proof.Machine

/-- `B32_START mode` (40_base32_decoder.md R95): accepted in `IDLE` and, as a restart, in `DECODING`. -/
def execB32Start (mode : Mode) (s : State) : Out :=
  runIfAccepted (s.phase = .idle || s.phase = .decoding) (startDecode mode) s

/-- `B32_PUSH ch` (40_base32_decoder.md R96 to R98). -/
def execB32Push (ch : Byte) (s : State) : Out := pushClass (classify ch) s

/-- `B32_END` (40_base32_decoder.md R99, R100): accepted in `DECODING` only. -/
def execB32End (s : State) : Out := runIfAccepted (s.phase = .decoding) endDecode s

end Sys2Proof.Machine
end

