-- ==== Sys2Proof/Machine/Engine.lean ====
section
/-! DEFINITION. The meanings of the token engine's commands (45_token_engine.md), of the response (42_hmac_sha1_interface.md) and of the
reserved codes (30_encoding.md R63). -/

namespace Sys2Proof.Machine

/-- `NOP` (45_token_engine.md R170): accepted in every phase, no effect. -/
def execNop (s : State) : Out := .next s

/-- `HOTP counter` (45_token_engine.md R171): accepted in `IDLE` only. -/
def execHotp (counter : Counter) (s : State) : Out := runIfAccepted (s.phase = .idle) (startCall counter) s

/-- `HMAC_RESP len, digest` (42_hmac_sha1_interface.md R140): accepted in `WAIT_HMAC` only. -/
def execHmacResp (len : Byte) (digest : Digest) (s : State) : Out :=
  runIfAccepted (s.phase = .waitHmac) (takeResponse len digest) s

/-- Command code 5 (30_encoding.md R63): dropped with `FAULT <- 1` in every phase. -/
def execReserved5 (s : State) : Out := .next (dropWithFault s)

/-- Command code 6 (30_encoding.md R63). -/
def execReserved6 (s : State) : Out := .next (dropWithFault s)

/-- Command code 7 (30_encoding.md R63). -/
def execReserved7 (s : State) : Out := .next (dropWithFault s)

end Sys2Proof.Machine
end

