-- ==== Sys2Proof/Machine/Symbols.lean ====
section
/-! DEFINITION. The meanings of the rows of format SYM (30_encoding.md R66 to R69): a character is the operand of `B32_PUSH` and has its
effect through it (R65), so a row's meaning is the push of a character of that row (log 3). Neither case of a letter changes anything
(R67). -/

namespace Sys2Proof.Machine

/-- `A` or `a`, value 0. -/
def execSymA (_lower : Bool) (s : State) : Out := pushClass (.sym 0) s

/-- `B` or `b`, value 1. -/
def execSymB (_lower : Bool) (s : State) : Out := pushClass (.sym 1) s

/-- `C` or `c`, value 2. -/
def execSymC (_lower : Bool) (s : State) : Out := pushClass (.sym 2) s

/-- `D` or `d`, value 3. -/
def execSymD (_lower : Bool) (s : State) : Out := pushClass (.sym 3) s

/-- `E` or `e`, value 4. -/
def execSymE (_lower : Bool) (s : State) : Out := pushClass (.sym 4) s

/-- `F` or `f`, value 5. -/
def execSymF (_lower : Bool) (s : State) : Out := pushClass (.sym 5) s

/-- `G` or `g`, value 6. -/
def execSymG (_lower : Bool) (s : State) : Out := pushClass (.sym 6) s

/-- `H` or `h`, value 7. -/
def execSymH (_lower : Bool) (s : State) : Out := pushClass (.sym 7) s

/-- `I` or `i`, value 8. -/
def execSymI (_lower : Bool) (s : State) : Out := pushClass (.sym 8) s

/-- `J` or `j`, value 9. -/
def execSymJ (_lower : Bool) (s : State) : Out := pushClass (.sym 9) s

/-- `K` or `k`, value 10. -/
def execSymK (_lower : Bool) (s : State) : Out := pushClass (.sym 10) s

/-- `L` or `l`, value 11. -/
def execSymL (_lower : Bool) (s : State) : Out := pushClass (.sym 11) s

/-- `M` or `m`, value 12. -/
def execSymM (_lower : Bool) (s : State) : Out := pushClass (.sym 12) s

/-- `N` or `n`, value 13. -/
def execSymN (_lower : Bool) (s : State) : Out := pushClass (.sym 13) s

/-- `O` or `o`, value 14. -/
def execSymO (_lower : Bool) (s : State) : Out := pushClass (.sym 14) s

/-- `P` or `p`, value 15. -/
def execSymP (_lower : Bool) (s : State) : Out := pushClass (.sym 15) s

/-- `Q` or `q`, value 16. -/
def execSymQ (_lower : Bool) (s : State) : Out := pushClass (.sym 16) s

/-- `R` or `r`, value 17. -/
def execSymR (_lower : Bool) (s : State) : Out := pushClass (.sym 17) s

/-- `S` or `s`, value 18. -/
def execSymS (_lower : Bool) (s : State) : Out := pushClass (.sym 18) s

/-- `T` or `t`, value 19. -/
def execSymT (_lower : Bool) (s : State) : Out := pushClass (.sym 19) s

/-- `U` or `u`, value 20. -/
def execSymU (_lower : Bool) (s : State) : Out := pushClass (.sym 20) s

/-- `V` or `v`, value 21. -/
def execSymV (_lower : Bool) (s : State) : Out := pushClass (.sym 21) s

/-- `W` or `w`, value 22. -/
def execSymW (_lower : Bool) (s : State) : Out := pushClass (.sym 22) s

/-- `X` or `x`, value 23. -/
def execSymX (_lower : Bool) (s : State) : Out := pushClass (.sym 23) s

/-- `Y` or `y`, value 24. -/
def execSymY (_lower : Bool) (s : State) : Out := pushClass (.sym 24) s

/-- `Z` or `z`, value 25. -/
def execSymZ (_lower : Bool) (s : State) : Out := pushClass (.sym 25) s

/-- `2`, value 26. -/
def execSym2 (s : State) : Out := pushClass (.sym 26) s

/-- `3`, value 27. -/
def execSym3 (s : State) : Out := pushClass (.sym 27) s

/-- `4`, value 28. -/
def execSym4 (s : State) : Out := pushClass (.sym 28) s

/-- `5`, value 29. -/
def execSym5 (s : State) : Out := pushClass (.sym 29) s

/-- `6`, value 30. -/
def execSym6 (s : State) : Out := pushClass (.sym 30) s

/-- `7`, value 31. -/
def execSym7 (s : State) : Out := pushClass (.sym 31) s

/-- `=` (30_encoding.md R68). -/
def execPad (s : State) : Out := pushClass .pad s

/-- A byte of the default row (30_encoding.md R69); which of the 197 it is does not matter. -/
def execInvalid (_ch : Byte) (s : State) : Out := pushClass .invalid s

end Sys2Proof.Machine
end

