-- ==== Sys2Proof/Machine/Dispatch.lean ====
section
/-! DEFINITION. One arm per constructor of Instr. -/

namespace Sys2Proof.Machine

def exec (i : Instr) (s : State) : Host.Outcome State Fault Refusal :=
  match i with
  | .nop => Sys2Proof.Machine.execNop s
  | .b32Start mode => Sys2Proof.Machine.execB32Start mode s
  | .b32Push ch => Sys2Proof.Machine.execB32Push ch s
  | .b32End => Sys2Proof.Machine.execB32End s
  | .hotp counter => Sys2Proof.Machine.execHotp counter s
  | .reserved5 => Sys2Proof.Machine.execReserved5 s
  | .reserved6 => Sys2Proof.Machine.execReserved6 s
  | .reserved7 => Sys2Proof.Machine.execReserved7 s
  | .hmacResp len digest => Sys2Proof.Machine.execHmacResp len digest s
  | .symA lower => Sys2Proof.Machine.execSymA lower s
  | .symB lower => Sys2Proof.Machine.execSymB lower s
  | .symC lower => Sys2Proof.Machine.execSymC lower s
  | .symD lower => Sys2Proof.Machine.execSymD lower s
  | .symE lower => Sys2Proof.Machine.execSymE lower s
  | .symF lower => Sys2Proof.Machine.execSymF lower s
  | .symG lower => Sys2Proof.Machine.execSymG lower s
  | .symH lower => Sys2Proof.Machine.execSymH lower s
  | .symI lower => Sys2Proof.Machine.execSymI lower s
  | .symJ lower => Sys2Proof.Machine.execSymJ lower s
  | .symK lower => Sys2Proof.Machine.execSymK lower s
  | .symL lower => Sys2Proof.Machine.execSymL lower s
  | .symM lower => Sys2Proof.Machine.execSymM lower s
  | .symN lower => Sys2Proof.Machine.execSymN lower s
  | .symO lower => Sys2Proof.Machine.execSymO lower s
  | .symP lower => Sys2Proof.Machine.execSymP lower s
  | .symQ lower => Sys2Proof.Machine.execSymQ lower s
  | .symR lower => Sys2Proof.Machine.execSymR lower s
  | .symS lower => Sys2Proof.Machine.execSymS lower s
  | .symT lower => Sys2Proof.Machine.execSymT lower s
  | .symU lower => Sys2Proof.Machine.execSymU lower s
  | .symV lower => Sys2Proof.Machine.execSymV lower s
  | .symW lower => Sys2Proof.Machine.execSymW lower s
  | .symX lower => Sys2Proof.Machine.execSymX lower s
  | .symY lower => Sys2Proof.Machine.execSymY lower s
  | .symZ lower => Sys2Proof.Machine.execSymZ lower s
  | .sym2 => Sys2Proof.Machine.execSym2 s
  | .sym3 => Sys2Proof.Machine.execSym3 s
  | .sym4 => Sys2Proof.Machine.execSym4 s
  | .sym5 => Sys2Proof.Machine.execSym5 s
  | .sym6 => Sys2Proof.Machine.execSym6 s
  | .sym7 => Sys2Proof.Machine.execSym7 s
  | .pad => Sys2Proof.Machine.execPad s
  | .invalid ch => Sys2Proof.Machine.execInvalid ch s

end Sys2Proof.Machine
end

