-- ==== Sys2Proof/WellFormed.lean ====
section
/-! DEFINITION. Which instruction terms stand for a word of their row. Every operand is as wide as its field, so only the default row
`INVALID` has a condition: it applies to the bytes that match no other row of format SYM (30_encoding.md R69). -/

namespace Sys2Proof

/-- The 197 bytes of the row `INVALID`, by the ranges its row of spec/opcode_table.json lists. -/
def isInvalidByte (ch : Byte) : Bool :=
  ch.toNat ≤ 0x31 || (0x38 ≤ ch.toNat && ch.toNat ≤ 0x3C) || (0x3E ≤ ch.toNat && ch.toNat ≤ 0x40)
    || (0x5B ≤ ch.toNat && ch.toNat ≤ 0x60) || 0x7B ≤ ch.toNat

/-- A term is well formed when some word of its row stands for it. -/
def Instr.wf : Instr → Bool
  | .nop => true
  | .b32Start _ => true
  | .b32Push _ => true
  | .b32End => true
  | .hotp _ => true
  | .reserved5 => true
  | .reserved6 => true
  | .reserved7 => true
  | .hmacResp _ _ => true
  | .symA _ => true
  | .symB _ => true
  | .symC _ => true
  | .symD _ => true
  | .symE _ => true
  | .symF _ => true
  | .symG _ => true
  | .symH _ => true
  | .symI _ => true
  | .symJ _ => true
  | .symK _ => true
  | .symL _ => true
  | .symM _ => true
  | .symN _ => true
  | .symO _ => true
  | .symP _ => true
  | .symQ _ => true
  | .symR _ => true
  | .symS _ => true
  | .symT _ => true
  | .symU _ => true
  | .symV _ => true
  | .symW _ => true
  | .symX _ => true
  | .symY _ => true
  | .symZ _ => true
  | .sym2 => true
  | .sym3 => true
  | .sym4 => true
  | .sym5 => true
  | .sym6 => true
  | .sym7 => true
  | .pad => true
  | .invalid ch => isInvalidByte ch

end Sys2Proof
end

