-- ==== Sys2Proof/Decode.lean ====
section
/-! DEFINITION. Decoding and encoding (30_encoding.md). The block decodes three kinds of word, each on a port of its own: the command word
(R60), the response word (R64) and the character (R65, R66). Every word of each kind decodes: the reserved codes are rows of the table, and
`INVALID` is the default row. What is refused, by name, is a number that is no word of any format. -/

namespace Sys2Proof

/-- A word of one of the three formats. -/
inductive TableWord where
  | cmd (w : CmdWord)
  | resp (w : RespWord)
  | sym (ch : Byte)
  deriving DecidableEq, Repr

/-- Why a number of given length is no word of the block. -/
inductive DecodeReject where
  /-- Longer than the longest word, 168 bits. -/
  | noFormatSoLong (nbits : Nat)
  /-- A bit is set beyond the format's last bit. -/
  | bitBeyondFormat (width : Nat)
  deriving DecidableEq, Repr

/-! ## Fields -/

/-- `cmd_op = cmd[66:64]` (R60). -/
def cmdOpField (w : CmdWord) : BitVec 3 := w.extractLsb' 64 3

/-- `cmd_arg = cmd[63:0]` (R60). -/
def cmdArgField (w : CmdWord) : BitVec 64 := w.extractLsb' 0 64

/-- `mode = cmd_arg[0]` (R61). -/
def modeOperand (arg : BitVec 64) : Mode := if arg.getLsbD 0 then .secret else .generic

/-- `ch = cmd_arg[7:0]` (R61). -/
def charOperand (arg : BitVec 64) : Byte := arg.extractLsb' 0 8

/-- `counter = cmd_arg[63:0]` (R61). -/
def counterOperand (arg : BitVec 64) : Counter := arg

/-- `len = resp[167:160]` (R64). -/
def respLenField (w : RespWord) : Byte := w.extractLsb' 160 8

/-- `hmac_resp_digest = resp[159:0]` (R64). -/
def respDigestField (w : RespWord) : Digest := w.extractLsb' 0 160

/-! ## Decoding -/

/-- The command table of R60; operand bits a command does not use are not looked at (R62). -/
def decodeCmd (w : CmdWord) : Instr :=
  match (cmdOpField w).toNat with
  | 0 => .nop
  | 1 => .b32Start (modeOperand (cmdArgField w))
  | 2 => .b32Push (charOperand (cmdArgField w))
  | 3 => .b32End
  | 4 => .hotp (counterOperand (cmdArgField w))
  | 5 => .reserved5
  | 6 => .reserved6
  | _ => .reserved7

/-- Every response is the one operation `HMAC_RESP` (R64). -/
def decodeResp (w : RespWord) : Instr := .hmacResp (respLenField w) (respDigestField w)

/-- A row of format SYM: the character matches when `ch & mask` is `pattern`; `build` gets bit 5, the case bit. -/
structure SymRow where
  mask : Byte
  pattern : Byte
  build : Bool → Instr

/-- A letter row: "a letter row matches `ch & 0xDF == upper`" (R69). -/
def letterRow (upper : Byte) (build : Bool → Instr) : SymRow := ⟨0xDF, upper, build⟩

/-- A row that matches one byte: "a digit row and the pad row match `ch & 0xFF == byte`" (R69). -/
def byteRow (byte : Byte) (i : Instr) : SymRow := ⟨0xFF, byte, fun _ => i⟩

/-- The letter rows of spec/opcode_table.json. -/
def letterRows : List SymRow :=
  [letterRow 0x41 .symA, letterRow 0x42 .symB, letterRow 0x43 .symC, letterRow 0x44 .symD, letterRow 0x45 .symE, letterRow 0x46 .symF, letterRow 0x47 .symG, letterRow 0x48 .symH]
    ++ [letterRow 0x49 .symI, letterRow 0x4A .symJ, letterRow 0x4B .symK, letterRow 0x4C .symL, letterRow 0x4D .symM, letterRow 0x4E .symN, letterRow 0x4F .symO, letterRow 0x50 .symP]
    ++ [letterRow 0x51 .symQ, letterRow 0x52 .symR, letterRow 0x53 .symS, letterRow 0x54 .symT, letterRow 0x55 .symU, letterRow 0x56 .symV, letterRow 0x57 .symW, letterRow 0x58 .symX, letterRow 0x59 .symY, letterRow 0x5A .symZ]

/-- The digit rows and the pad row of spec/opcode_table.json. -/
def byteRows : List SymRow :=
  [byteRow 0x32 .sym2, byteRow 0x33 .sym3, byteRow 0x34 .sym4, byteRow 0x35 .sym5, byteRow 0x36 .sym6, byteRow 0x37 .sym7, byteRow 0x3D .pad]

/-- The alphabet table: the first row that matches; a byte that matches no row is `INVALID` (R69). -/
def decodeSym (ch : Byte) : Instr :=
  match (letterRows ++ byteRows).find? (fun r => ch &&& r.mask == r.pattern) with
  | some r => r.build (ch.getLsbD 5)
  | none => .invalid ch

/-- The decoder. -/
def decode : TableWord → Instr
  | .cmd w => decodeCmd w
  | .resp w => decodeResp w
  | .sym ch => decodeSym ch

/-- The word that a number `w` of `nbits` bits stands for: the shortest format that holds `nbits` bits, missing high bits 0 (log 9). -/
def wordOfBits (nbits w : Nat) : Except DecodeReject TableWord :=
  if nbits ≤ 8 then
    if w < 2 ^ 8 then .ok (.sym (BitVec.ofNat 8 w)) else .error (.bitBeyondFormat 8)
  else if nbits ≤ 72 then
    if w < 2 ^ 67 then .ok (.cmd (BitVec.ofNat 67 w)) else .error (.bitBeyondFormat 67)
  else if nbits ≤ 168 then
    if w < 2 ^ 168 then .ok (.resp (BitVec.ofNat 168 w)) else .error (.bitBeyondFormat 168)
  else .error (.noFormatSoLong nbits)

/-- The decoder on any number of any length: an instruction, or a rejection by name. -/
def decodeBits (nbits w : Nat) : Except DecodeReject Instr :=
  match wordOfBits nbits w with
  | .ok tw => .ok (decode tw)
  | .error e => .error e

/-- What the decoder reads from an opcode-table word. -/
def decodeTableWord (nbits w : Nat) : Option Instr :=
  match decodeBits nbits w with
  | .ok i => some i
  | .error _ => none

/-! ## Encoding -/

/-- `cmd = cmd_op ∥ cmd_arg` (R60). -/
def cmdWord (op : BitVec 3) (arg : BitVec 64) : CmdWord := (op.setWidth 67 <<< 64) ||| arg.setWidth 67

/-- `resp = len ∥ digest` (R64). -/
def respWord (len : Byte) (digest : Digest) : RespWord := (len.setWidth 168 <<< 160) ||| digest.setWidth 168

/-- `cmd_arg[0]` of `B32_START`, the other bits 0 (R60). -/
def modeArg : Mode → BitVec 64
  | .generic => 0
  | .secret => 1

/-- A letter with its case bit: lower case is upper case plus 0x20 (R67). -/
def letterByte (upper : Byte) (lower : Bool) : Byte := if lower then upper ||| 0x20 else upper

/-- The word of a well-formed instruction, ignored bits 0. -/
def encode : Instr → TableWord
  | .nop => .cmd (cmdWord 0 0)
  | .b32Start m => .cmd (cmdWord 1 (modeArg m))
  | .b32Push ch => .cmd (cmdWord 2 (ch.setWidth 64))
  | .b32End => .cmd (cmdWord 3 0)
  | .hotp c => .cmd (cmdWord 4 c)
  | .reserved5 => .cmd (cmdWord 5 0)
  | .reserved6 => .cmd (cmdWord 6 0)
  | .reserved7 => .cmd (cmdWord 7 0)
  | .hmacResp len d => .resp (respWord len d)
  | .symA l => .sym (letterByte 0x41 l)
  | .symB l => .sym (letterByte 0x42 l)
  | .symC l => .sym (letterByte 0x43 l)
  | .symD l => .sym (letterByte 0x44 l)
  | .symE l => .sym (letterByte 0x45 l)
  | .symF l => .sym (letterByte 0x46 l)
  | .symG l => .sym (letterByte 0x47 l)
  | .symH l => .sym (letterByte 0x48 l)
  | .symI l => .sym (letterByte 0x49 l)
  | .symJ l => .sym (letterByte 0x4A l)
  | .symK l => .sym (letterByte 0x4B l)
  | .symL l => .sym (letterByte 0x4C l)
  | .symM l => .sym (letterByte 0x4D l)
  | .symN l => .sym (letterByte 0x4E l)
  | .symO l => .sym (letterByte 0x4F l)
  | .symP l => .sym (letterByte 0x50 l)
  | .symQ l => .sym (letterByte 0x51 l)
  | .symR l => .sym (letterByte 0x52 l)
  | .symS l => .sym (letterByte 0x53 l)
  | .symT l => .sym (letterByte 0x54 l)
  | .symU l => .sym (letterByte 0x55 l)
  | .symV l => .sym (letterByte 0x56 l)
  | .symW l => .sym (letterByte 0x57 l)
  | .symX l => .sym (letterByte 0x58 l)
  | .symY l => .sym (letterByte 0x59 l)
  | .symZ l => .sym (letterByte 0x5A l)
  | .sym2 => .sym 0x32
  | .sym3 => .sym 0x33
  | .sym4 => .sym 0x34
  | .sym5 => .sym 0x35
  | .sym6 => .sym 0x36
  | .sym7 => .sym 0x37
  | .pad => .sym 0x3D
  | .invalid ch => .sym ch

/-! ## The rows of spec/opcode_table.json -/

/-- A row's format with its `mask` and `match`. -/
inductive TableRow where
  | cmd (mask pattern : CmdWord)
  | resp (mask pattern : RespWord)
  | sym (mask pattern : Byte)
  deriving DecidableEq, Repr

/-- A command row: mask 0x7 on `cmd_op`, the code in its place. -/
def cmdRow (code : BitVec 3) : TableRow := .cmd (cmdWord 7 0) (cmdWord code 0)

/-- Does the row match the word? -/
def TableRow.matchesWord : TableRow → TableWord → Bool
  | .cmd mask pattern, .cmd w => w &&& mask == pattern
  | .resp mask pattern, .resp w => w &&& mask == pattern
  | .sym mask pattern, .sym ch => ch &&& mask == pattern
  | _, _ => false

/-- The opcode-table row of an instruction. -/
def Instr.tableRow : Instr → TableRow
  | .nop => cmdRow 0
  | .b32Start _ => cmdRow 1
  | .b32Push _ => cmdRow 2
  | .b32End => cmdRow 3
  | .hotp _ => cmdRow 4
  | .reserved5 => cmdRow 5
  | .reserved6 => cmdRow 6
  | .reserved7 => cmdRow 7
  | .hmacResp _ _ => .resp 0 0
  | .symA _ => .sym 0xDF 0x41
  | .symB _ => .sym 0xDF 0x42
  | .symC _ => .sym 0xDF 0x43
  | .symD _ => .sym 0xDF 0x44
  | .symE _ => .sym 0xDF 0x45
  | .symF _ => .sym 0xDF 0x46
  | .symG _ => .sym 0xDF 0x47
  | .symH _ => .sym 0xDF 0x48
  | .symI _ => .sym 0xDF 0x49
  | .symJ _ => .sym 0xDF 0x4A
  | .symK _ => .sym 0xDF 0x4B
  | .symL _ => .sym 0xDF 0x4C
  | .symM _ => .sym 0xDF 0x4D
  | .symN _ => .sym 0xDF 0x4E
  | .symO _ => .sym 0xDF 0x4F
  | .symP _ => .sym 0xDF 0x50
  | .symQ _ => .sym 0xDF 0x51
  | .symR _ => .sym 0xDF 0x52
  | .symS _ => .sym 0xDF 0x53
  | .symT _ => .sym 0xDF 0x54
  | .symU _ => .sym 0xDF 0x55
  | .symV _ => .sym 0xDF 0x56
  | .symW _ => .sym 0xDF 0x57
  | .symX _ => .sym 0xDF 0x58
  | .symY _ => .sym 0xDF 0x59
  | .symZ _ => .sym 0xDF 0x5A
  | .sym2 => .sym 0xFF 0x32
  | .sym3 => .sym 0xFF 0x33
  | .sym4 => .sym 0xFF 0x34
  | .sym5 => .sym 0xFF 0x35
  | .sym6 => .sym 0xFF 0x36
  | .sym7 => .sym 0xFF 0x37
  | .pad => .sym 0xFF 0x3D
  | .invalid _ => .sym 0 0

end Sys2Proof
end

