-- ==== Sys2Proof/Machine/Fetch.lean ====
section
/-! DEFINITION. Taking the next transaction from the input ports (20_memory.md R43, R50; 70_reset_and_hazards.md R220). The block fetches
nothing from a memory (20_memory.md R52): each transaction is executed in the step it is presented (log 1). -/

namespace Sys2Proof.Machine

/-- What one step takes. -/
inductive Presented where
  | nothing
  | reset
  | response (w : RespWord)
  | command (w : CmdWord)
  deriving DecidableEq, Repr

/-- The command word of a slot, `cmd_op ∥ cmd_arg` (30_encoding.md R60). -/
def slotCmdWord (p : PortSlot) : CmdWord := cmdWord p.cmdOp p.cmdArg

/-- The response word of a slot, `hmac_resp_len ∥ hmac_resp_digest` (30_encoding.md R64). -/
def slotRespWord (p : PortSlot) : RespWord := respWord p.hmacRespLen p.hmacRespDigest

/-- What the next step takes from a slot: `rst` beats everything, a response goes before a command (20_memory.md R50,
70_reset_and_hazards.md R220). -/
def slotTransaction (p : PortSlot) : Presented :=
  if p.rst then .reset
  else if p.hmacRespValid then .response (slotRespWord p)
  else if p.cmdValid then .command (slotCmdWord p)
  else .nothing

/-- A command presented with a response is still there after the response's step; with `rst` it is lost. -/
def slotLeft (p : PortSlot) : List PortSlot :=
  if !p.rst && p.hmacRespValid && p.cmdValid then [{ p with hmacRespValid := false }] else []

/-- The next transaction. -/
def nextTransaction : List PortSlot → Presented
  | [] => .nothing
  | p :: _ => slotTransaction p

/-- What is still to be presented after it. -/
def inputsLeft : List PortSlot → List PortSlot
  | [] => []
  | p :: rest => slotLeft p ++ rest

/-- The state with its next transaction taken from the ports. -/
def takeInput (s : State) : State := { s with inputs := inputsLeft s.inputs }

/-- Ports on which nothing is presented. -/
def quietSlot : PortSlot where
  rst := false
  cmdValid := false
  cmdOp := 0
  cmdArg := 0
  hmacRespValid := false
  hmacRespLen := 0
  hmacRespDigest := 0

/-- The ports in a step with `rst = 1`. -/
def resetSlot : PortSlot := { quietSlot with rst := true }

/-- The ports carrying command code `op` with operand `arg`. -/
def commandSlot (op : BitVec 3) (arg : BitVec 64) : PortSlot :=
  { quietSlot with cmdValid := true, cmdOp := op, cmdArg := arg }

/-- The ports carrying a response. -/
def responseSlot (len : Byte) (d : Digest) : PortSlot :=
  { quietSlot with hmacRespValid := true, hmacRespLen := len, hmacRespDigest := d }

/-- The ports carrying a word of the opcode table. A character travels as the operand of `B32_PUSH` (30_encoding.md R65; log 3). -/
def slotOfWord : TableWord → PortSlot
  | .cmd w => commandSlot (cmdOpField w) (cmdArgField w)
  | .resp w => responseSlot (respLenField w) (respDigestField w)
  | .sym ch => commandSlot 2 (ch.setWidth 64)

end Sys2Proof.Machine
end

