-- ==== Sys2Proof/Machine/Cycle.lean ====
section
/-! DEFINITION. Running what was presented (20_memory.md R43). -/

namespace Sys2Proof.Machine

/-- One transaction; with none the state does not change (20_memory.md R43). -/
def runPresented (p : Presented) (s : State) : Out :=
  match p with
  | .nothing => .next s
  | .reset => .next (applyReset s)
  | .response w => exec (decodeResp w) s
  | .command w => exec (decodeCmd w) s

/-- The state in which the opcode-table word `w` of `nbits` bits is presented next. -/
def presentTableWord (s : State) (nbits w : Nat) : State :=
  match wordOfBits nbits w with
  | .ok tw => { s with inputs := slotOfWord tw :: s.inputs }
  | .error _ => s

end Sys2Proof.Machine
end

