-- ==== Sys2Proof/Machine/Step.lean ====
section
/-! DEFINITION. One step of the block (20_memory.md R43). -/

namespace Sys2Proof.Machine

/-- Take the next transaction from the ports and run it. -/
def step (s : State) : Host.Outcome State Fault Refusal :=
  runPresented (nextTransaction s.inputs) (takeInput s)

/-- `s` with an opcode-table word presented on the ports before everything else, so that the next step runs it (log 1, log 9). -/
def State.withFetchWord (s : State) (nbits w : Nat) : State := presentTableWord s nbits w

end Sys2Proof.Machine
end

