-- ==== Sys2Proof/Machine/Ports.lean ====
section
/-! DEFINITION. The output ports (20_memory.md R42): functions of the state (10_state.md R26, 42_hmac_sha1_interface.md R132) and strobes
of the step just taken (20_memory.md R44, 70_reset_and_hazards.md R232). -/

namespace Sys2Proof.Machine

/-- `code_bcd` (10_state.md R26). -/
def codeBcdPort (s : State) : BitVec 24 := bcdLanes s.codeD

/-- `code_bin` (10_state.md R26). -/
def codeBinPort (s : State) : BitVec 20 := s.codeBin

/-- `hmac_key`: the key while `PHASE = WAIT_HMAC`, else all 0 (42_hmac_sha1_interface.md R132). -/
def hmacKeyPort (s : State) : BitVec 80 := if s.phase = .waitHmac then keyLanes s.key else 0

/-- `hmac_msg`: the message while `PHASE = WAIT_HMAC`, else all 0 (42_hmac_sha1_interface.md R132). -/
def hmacMsgPort (s : State) : BitVec 64 := if s.phase = .waitHmac then msgLanes s.msg else 0

/-- The events a step added: those recorded after it and not before. -/
def newEvents (before after : State) : List Event := after.events.drop before.events.length

/-- The byte of an `EV_DEC_BYTE`. -/
def decByteOf : Event → Option Byte
  | .decByte b => some b
  | .decDone _ => none
  | .hmacReq _ _ => none
  | .codeDone _ => none

/-- Is it an `EV_DEC_DONE`? -/
def isDecDone : Event → Bool
  | .decByte _ => false
  | .decDone _ => true
  | .hmacReq _ _ => false
  | .codeDone _ => false

/-- Is it an `EV_HMAC_REQ`? -/
def isHmacReq : Event → Bool
  | .decByte _ => false
  | .decDone _ => false
  | .hmacReq _ _ => true
  | .codeDone _ => false

/-- Is it an `EV_CODE_DONE`? -/
def isCodeDone : Event → Bool
  | .decByte _ => false
  | .decDone _ => false
  | .hmacReq _ _ => false
  | .codeDone _ => true

/-- All output ports of 20_memory.md R42. `decByte` is `none` in a step that emits no `EV_DEC_BYTE`: the line then carries any value
(93_implementation_defined.md U20). -/
structure OutputPorts where
  status : BitVec 10
  codeBcd : BitVec 24
  codeBin : BitVec 20
  codeDone : Bool
  decByteValid : Bool
  decByte : Option Byte
  decDone : Bool
  hmacReqValid : Bool
  hmacKey : BitVec 80
  hmacMsg : BitVec 64
  deriving DecidableEq, Repr

/-- What the output ports show after a step from `before` to `after`. -/
def outputPorts (before after : State) : OutputPorts where
  status := statusWord after
  codeBcd := codeBcdPort after
  codeBin := codeBinPort after
  codeDone := (newEvents before after).any isCodeDone
  decByteValid := ((newEvents before after).findSome? decByteOf).isSome
  decByte := (newEvents before after).findSome? decByteOf
  decDone := (newEvents before after).any isDecDone
  hmacReqValid := (newEvents before after).any isHmacReq
  hmacKey := hmacKeyPort after
  hmacMsg := hmacMsgPort after

end Sys2Proof.Machine
end

