-- ==== Sys2Proof/Machine/Contract.lean ====
section
/-! DEFINITION. The contracts the commands carry out, as the spec's pure functions: `b32decode` (40_base32_decoder.md R90, R91),
`validSecret` (R92), `hotp` (45_token_engine.md R172). -/

namespace Sys2Proof.Machine

/-- What `b32decode` gives: `Ok(bytes)` or `Err(name)`. -/
inductive DecodeResult where
  | ok (bytes : List Byte)
  | err (e : ErrorName)
  deriving DecidableEq, Repr

/-- The value of a symbol; a pad has none (30_encoding.md R68). -/
def symbolValue : CharClass → Option SymVal
  | .sym v => some v
  | .pad => none
  | .invalid => none

/-- Line 3 of R90: the values of the symbols, in order. -/
def symbolsOf (cs : List Byte) : List SymVal := cs.filterMap (fun ch => symbolValue (classify ch))

/-- Line 6 of R90: the symbols' bits as one number, first symbol most significant. -/
def symbolBits (syms : List SymVal) : Nat := syms.foldl (fun a v => a * 32 + v.toNat) 0

/-- `partialBytes(rem)`, not defined for 1, 3, 6 (R91). -/
def partialBytes : Nat → Option Nat
  | 0 => some 0
  | 2 => some 1
  | 4 => some 2
  | 5 => some 3
  | 7 => some 4
  | _ => none

/-- Lines 8: the first `count` bytes of the symbols' bits, `bits[5*n - 1 - 8*j : 5*n - 8 - 8*j]`. -/
def bytesOfSymbols (syms : List SymVal) (count : Nat) : List Byte :=
  (List.range count).map fun j => BitVec.ofNat 8 (symbolBits syms / 2 ^ (5 * syms.length - 8 - 8 * j))

/-- `b32decode(s)` (R90). -/
def b32decode (cs : List Byte) : DecodeResult :=
  if cs.any (fun ch => classify ch = .invalid) then .err .invalidCharacter
  else
    match partialBytes ((symbolsOf cs).length % 8) with
    | none => .err .invalidPadding
    | some p => .ok (bytesOfSymbols (symbolsOf cs) ((symbolsOf cs).length / 8 * 5 + p))

/-- Is it a symbol? -/
def isSymbol (ch : Byte) : Bool := (symbolValue (classify ch)).isSome

/-- `validSecret(s)` (R92). -/
def validSecret (cs : List Byte) : Bool := cs.length = Config.secretLen && cs.all isSymbol

/-- `hotp(key, c)` (45_token_engine.md R172), for the uninterpreted `HMAC` (log 4). -/
def hotp (key : Key) (c : Counter) : Vector Digit 6 :=
  digits (numericCode (truncate (Config.hmac key (pack64be c))))

/-- The same code in binary (45_token_engine.md R173). -/
def hotpBin (key : Key) (c : Counter) : BitVec 20 := numericCode (truncate (Config.hmac key (pack64be c)))

/-- What a unit that keeps its duties answers to `EV_HMAC_REQ(k, m)` (42_hmac_sha1_interface.md R133). -/
def dutifulAnswer (k : Key) (m : Msg) : Instr := .hmacResp 20 (Config.hmac k m)

end Sys2Proof.Machine
end

