-- ==== Sys2Proof/Machine/Pseudo.lean ====
section
/-! DEFINITION. Sequences of transactions and the host's pseudo-operations (30_encoding.md R73, 45_token_engine.md R174 to R176). -/

namespace Sys2Proof.Machine

/-- Transactions applied in order (70_reset_and_hazards.md R238). -/
def execSeq : List Instr → State → Out
  | [], s => .next s
  | i :: is, s =>
    match exec i s with
    | .next t => execSeq is t
    | .fault r => .fault r
    | .refused r => .refused r

/-- `B32_START mode`, the pushes of `cs` in order, `B32_END` (40_base32_decoder.md R93). -/
def decodeTransaction (m : Mode) (cs : List Byte) : List Instr :=
  Instr.b32Start m :: (cs.map Instr.b32Push ++ [Instr.b32End])

/-- `LOAD_SECRET "s"` (45_token_engine.md R174). -/
def loadSecret (cs : List Byte) : List Instr := decodeTransaction .secret cs

/-- `DECODE "s"` (45_token_engine.md R175). -/
def decodeString (cs : List Byte) : List Instr := decodeTransaction .generic cs

/-- `TOTP t` = `HOTP (t div 30)`, the division done by the host (45_token_engine.md R176). -/
def totp (t : BitVec 64) : Instr := .hotp (BitVec.ofNat 64 (t.toNat / Config.totpStep))

end Sys2Proof.Machine
end

