-- ==== Sys2Proof/Safety.lean ====
section
/-! DEFINITION. What counts as a safe run: the phase table (45_token_engine.md R178), the duties of host and HMAC unit
(70_reset_and_hazards.md R231, R233), the end of a run (R238), and the invariants of 10_state.md R28. -/

namespace Sys2Proof.Safety

open Sys2Proof.Machine

/-- The phase table of 45_token_engine.md R178: does the phase accept the transaction? The rows of format SYM are pushes (log 3). -/
def accepts (p : Phase) : Instr → Bool
  | .nop => true
  | .b32Start _ => p != .waitHmac
  | .b32Push _ => p == .decoding
  | .b32End => p == .decoding
  | .hotp _ => p == .idle
  | .reserved5 => false
  | .reserved6 => false
  | .reserved7 => false
  | .hmacResp _ _ => p == .waitHmac
  | .symA _ => p == .decoding
  | .symB _ => p == .decoding
  | .symC _ => p == .decoding
  | .symD _ => p == .decoding
  | .symE _ => p == .decoding
  | .symF _ => p == .decoding
  | .symG _ => p == .decoding
  | .symH _ => p == .decoding
  | .symI _ => p == .decoding
  | .symJ _ => p == .decoding
  | .symK _ => p == .decoding
  | .symL _ => p == .decoding
  | .symM _ => p == .decoding
  | .symN _ => p == .decoding
  | .symO _ => p == .decoding
  | .symP _ => p == .decoding
  | .symQ _ => p == .decoding
  | .symR _ => p == .decoding
  | .symS _ => p == .decoding
  | .symT _ => p == .decoding
  | .symU _ => p == .decoding
  | .symV _ => p == .decoding
  | .symW _ => p == .decoding
  | .symX _ => p == .decoding
  | .symY _ => p == .decoding
  | .symZ _ => p == .decoding
  | .sym2 => p == .decoding
  | .sym3 => p == .decoding
  | .sym4 => p == .decoding
  | .sym5 => p == .decoding
  | .sym6 => p == .decoding
  | .sym7 => p == .decoding
  | .pad => p == .decoding
  | .invalid _ => p == .decoding

/-- The phase after an accepted transaction, by the same table: `B32_START` goes to `DECODING`, `B32_END` and `HMAC_RESP` go to `IDLE`,
`HOTP` goes to `WAIT_HMAC` or stays on `KeyDecodeFailure`, everything else stays. -/
def phaseAfter (s : State) : Instr → Phase
  | .b32Start _ => .decoding
  | .b32End => .idle
  | .hotp _ => if s.keyValid then .waitHmac else .idle
  | .hmacResp _ _ => .idle
  | .nop => s.phase
  | .b32Push _ => s.phase
  | .reserved5 => s.phase
  | .reserved6 => s.phase
  | .reserved7 => s.phase
  | .symA _ => s.phase
  | .symB _ => s.phase
  | .symC _ => s.phase
  | .symD _ => s.phase
  | .symE _ => s.phase
  | .symF _ => s.phase
  | .symG _ => s.phase
  | .symH _ => s.phase
  | .symI _ => s.phase
  | .symJ _ => s.phase
  | .symK _ => s.phase
  | .symL _ => s.phase
  | .symM _ => s.phase
  | .symN _ => s.phase
  | .symO _ => s.phase
  | .symP _ => s.phase
  | .symQ _ => s.phase
  | .symR _ => s.phase
  | .symS _ => s.phase
  | .symT _ => s.phase
  | .symU _ => s.phase
  | .symV _ => s.phase
  | .symW _ => s.phase
  | .symX _ => s.phase
  | .symY _ => s.phase
  | .symZ _ => s.phase
  | .sym2 => s.phase
  | .sym3 => s.phase
  | .sym4 => s.phase
  | .sym5 => s.phase
  | .sym6 => s.phase
  | .sym7 => s.phase
  | .pad => s.phase
  | .invalid _ => s.phase

/-- The HMAC unit keeps 70_reset_and_hazards.md R233 (b), (c) with the transaction `i` in `s`: a response comes only while a request is
out, with 20 bytes, and carries `HMAC(KEY, MSG)`. -/
def UnitKeepsDuties (s : State) (i : Instr) : Prop :=
  ∀ len d, i = .hmacResp len d → s.phase = .waitHmac ∧ i = dutifulAnswer s.key s.msg

/-- A run has ended well when the list is used up and `PHASE = IDLE` (70_reset_and_hazards.md R238). -/
def endedWell (s : State) : Bool := s.inputs.isEmpty && s.phase == .idle

/-- The premise of a claim about a run: no duty marked "fault" was broken (70_reset_and_hazards.md R239). -/
def protocolKept (s : State) : Bool := !s.fault

/-- The number that `CODE_D` spells, most significant digit first (10_state.md R15). -/
def codeNumber (d : Vector Digit 6) : Nat :=
  d[0].toNat * 100000 + d[1].toNat * 10000 + d[2].toNat * 1000 + d[3].toNat * 100 + d[4].toNat * 10 + d[5].toNat

/-- 10_state.md R28 for one state, with what makes it inductive: parts (a) and (j) are the type of `PHASE` and a property of two states,
part (g) speaks of the run and is stated apart. -/
structure Inv (s : State) : Prop where
  /-- (b), sharper: `ERR` is one of the codes some rule writes (60_exceptions.md R191). -/
  err_written : s.err = 0 ∨ s.err = 1 ∨ s.err = 2 ∨ s.err = 3 ∨ s.err = 4 ∨ s.err = 6
  /-- (c), and outside a transaction as well: `NBITS = (5 * GPOS) mod 8`. -/
  nbits_of_gpos : s.nbits.toNat = 5 * s.gpos.toNat % 8
  /-- (d): `ACC < 2^NBITS`. -/
  acc_fits : s.acc.toNat < 2 ^ s.nbits.toNat
  /-- (e). -/
  nsym_le : s.nsym.toNat ≤ 16
  /-- (e). -/
  nbytes_of_nsym : s.nbytes.toNat = 5 * s.nsym.toNat / 8
  /-- (e): `NBYTES <= 10`. -/
  nbytes_le : s.nbytes.toNat ≤ 10
  /-- In an open secret transaction `GPOS` counts the same symbols as `NSYM` (10_state.md R23, R24). -/
  gpos_of_nsym : s.phase = .decoding → s.mode = .secret → s.gpos.toNat = s.nsym.toNat % 8
  /-- In an open generic transaction `NSYM` and `NBYTES` stay 0 (10_state.md R24). -/
  generic_counts : s.phase = .decoding → s.mode = .generic → s.nsym = 0 ∧ s.nbytes = 0
  /-- (f). -/
  digits_le : ∀ i : Fin 6, s.codeD[i].toNat ≤ 9
  /-- (f). -/
  code_lt : s.codeBin.toNat ≤ 999999
  /-- 10_state.md R15: the two forms of the code agree. -/
  code_agrees : s.codeBin.toNat = codeNumber s.codeD
  /-- (h). -/
  wait_key : s.phase = .waitHmac → s.keyValid = true ∧ s.codeValid = false
  /-- `ERR` is 0 while a request is out (42_hmac_sha1_interface.md R140, last comment). -/
  wait_err : s.phase = .waitHmac → s.err = 0
  /-- (i). -/
  secret_no_key : s.phase = .decoding → s.mode = .secret → s.keyValid = false

/-! ## The key and the secret it was decoded from (10_state.md R28 (g)) -/

/-- The class of the character a transaction pushes; the rows of format SYM are pushes (log 3). -/
def pushedClass : Instr → Option CharClass
  | .b32Push ch => some (classify ch)
  | .nop => none
  | .b32Start _ => none
  | .b32End => none
  | .hotp _ => none
  | .reserved5 => none
  | .reserved6 => none
  | .reserved7 => none
  | .hmacResp _ _ => none
  | .symA _ => some (.sym 0)
  | .symB _ => some (.sym 1)
  | .symC _ => some (.sym 2)
  | .symD _ => some (.sym 3)
  | .symE _ => some (.sym 4)
  | .symF _ => some (.sym 5)
  | .symG _ => some (.sym 6)
  | .symH _ => some (.sym 7)
  | .symI _ => some (.sym 8)
  | .symJ _ => some (.sym 9)
  | .symK _ => some (.sym 10)
  | .symL _ => some (.sym 11)
  | .symM _ => some (.sym 12)
  | .symN _ => some (.sym 13)
  | .symO _ => some (.sym 14)
  | .symP _ => some (.sym 15)
  | .symQ _ => some (.sym 16)
  | .symR _ => some (.sym 17)
  | .symS _ => some (.sym 18)
  | .symT _ => some (.sym 19)
  | .symU _ => some (.sym 20)
  | .symV _ => some (.sym 21)
  | .symW _ => some (.sym 22)
  | .symX _ => some (.sym 23)
  | .symY _ => some (.sym 24)
  | .symZ _ => some (.sym 25)
  | .sym2 => some (.sym 26)
  | .sym3 => some (.sym 27)
  | .sym4 => some (.sym 28)
  | .sym5 => some (.sym 29)
  | .sym6 => some (.sym 30)
  | .sym7 => some (.sym 31)
  | .pad => some .pad
  | .invalid _ => some .invalid

/-- What a claim about the key remembers of a run: the symbols the open secret transaction has taken, and those of the last secret that
was loaded with success. It is no state of the machine. -/
structure SecretHistory where
  taken : List SymVal
  loaded : List SymVal
  deriving DecidableEq, Repr

/-- Is the block inside a secret transaction that has met no error? -/
def secretOpen (s : State) : Bool := s.phase == .decoding && s.mode == .secret && s.err == 0

/-- The history after the transaction `i` is executed in `s`. -/
def historyAfter (s : State) (i : Instr) (h : SecretHistory) : SecretHistory :=
  match i with
  | .b32Start _ => if s.phase = .waitHmac then h else { h with taken := [] }
  | .b32End => if secretOpen s && s.nsym == 16 then { h with loaded := h.taken } else h
  | i =>
    match (pushedClass i).bind symbolValue with
    | some v => if secretOpen s && s.nsym != 16 then { h with taken := h.taken ++ [v] } else h
    | none => h

/-- The key in relation to the history. -/
structure KeyTracks (s : State) (h : SecretHistory) : Prop where
  inv : Inv s
  /-- 10_state.md R28 (g): a valid key is the decoding of the 16 symbols of the last successful load. -/
  valid_key : s.keyValid = true → h.loaded.length = 16 ∧ s.key.toList = bytesOfSymbols h.loaded 10
  /-- While a secret is being taken, `NSYM` counts its symbols, `KEY` holds the bytes they complete and `ACC` the bits left over. -/
  taken_count : secretOpen s = true → h.taken.length = s.nsym.toNat
  taken_bytes : secretOpen s = true →
    s.key.toList.take s.nbytes.toNat = bytesOfSymbols h.taken s.nbytes.toNat
  taken_bits : secretOpen s = true → s.acc.toNat = symbolBits h.taken % 2 ^ s.nbits.toNat

end Sys2Proof.Safety
end

