-- ==== Sys2Proof/Certificates/Slice0/Obligations.lean ====
section
/-! DEFINITION. Statements about base32_decoder for the provers. Each docstring names the rule of spec/ it formalises; where a statement
rests on an inference the spec marks as its own or on a choice of this model, the docstring says so. -/

open Sys2Proof Sys2Proof.Machine Sys2Proof.Safety

namespace Sys2Proof.Statements

/-- `t = (ACC << 5) | v` of 40_base32_decoder.md R94, as a number. -/
def shifted (s : State) (v : SymVal) : Nat := s.acc.toNat * 32 + v.toNat

/-- `n = NBITS + 5` of 40_base32_decoder.md R94. -/
def held (s : State) : Nat := s.nbits.toNat + 5

/-- `t[n-1 : n-8]`, the byte that completes (40_base32_decoder.md R94). -/
def newByte (s : State) (v : SymVal) : Byte := BitVec.ofNat 8 (shifted s v / 2 ^ (held s - 8))

/-- `run` is the push of a symbol of value `v` in an open generic transaction without error (40_base32_decoder.md R94, R98).
`Inv` rules out states no run reaches, such as `ACC` with more than `NBITS` bits (log 5). -/
def PushesGenericSymbol (v : SymVal) (run : State → Out) : Prop :=
  ∀ s : State, Inv s → s.phase = .decoding → s.mode = .generic → s.err = 0 →
    (held s < 8 → run s = .next { s with
      acc := BitVec.ofNat 7 (shifted s v), nbits := BitVec.ofNat 3 (held s), gpos := s.gpos + 1 }) ∧
    (8 ≤ held s → run s = .next { s with
      acc := BitVec.ofNat 7 (shifted s v % 2 ^ (held s - 8)), nbits := BitVec.ofNat 3 (held s - 8), gpos := s.gpos + 1,
      events := s.events ++ [.decByte (newByte s v)] })

/-- `run` is the push of a symbol of value `v` in an open secret transaction without error (40_base32_decoder.md R94, R97).
`Inv` rules out states no run reaches (log 5), and with it `NBYTES < 10` always holds where it is asked (KeyIndexStaysInRange). -/
def PushesSecretSymbol (v : SymVal) (run : State → Out) : Prop :=
  ∀ s : State, Inv s → s.phase = .decoding → s.mode = .secret → s.err = 0 →
    (s.nsym = 16 → run s = .next { s with err := 1 }) ∧
    (s.nsym ≠ 16 → held s < 8 → run s = .next { s with
      acc := BitVec.ofNat 7 (shifted s v), nbits := BitVec.ofNat 3 (held s), gpos := s.gpos + 1, nsym := s.nsym + 1 }) ∧
    (∀ hk : s.nbytes.toNat < 10, s.nsym ≠ 16 → 8 ≤ held s → run s = .next { s with
      acc := BitVec.ofNat 7 (shifted s v % 2 ^ (held s - 8)), nbits := BitVec.ofNat 3 (held s - 8), gpos := s.gpos + 1,
      nsym := s.nsym + 1, key := s.key.set s.nbytes.toNat (newByte s v) hk, nbytes := s.nbytes + 1 })

/-- The letter rows `SYM_A` to `SYM_I`. -/
def lettersToI : List ((Bool → Instr) × SymVal) :=
  [(Instr.symA, 0), (Instr.symB, 1), (Instr.symC, 2), (Instr.symD, 3), (Instr.symE, 4), (Instr.symF, 5), (Instr.symG, 6), (Instr.symH, 7), (Instr.symI, 8)]

/-- The letter rows `SYM_J` to `SYM_R`. -/
def lettersToR : List ((Bool → Instr) × SymVal) :=
  [(Instr.symJ, 9), (Instr.symK, 10), (Instr.symL, 11), (Instr.symM, 12), (Instr.symN, 13), (Instr.symO, 14), (Instr.symP, 15), (Instr.symQ, 16), (Instr.symR, 17)]

/-- The letter rows `SYM_S` to `SYM_Z`. -/
def lettersToZ : List ((Bool → Instr) × SymVal) :=
  [(Instr.symS, 18), (Instr.symT, 19), (Instr.symU, 20), (Instr.symV, 21), (Instr.symW, 22), (Instr.symX, 23), (Instr.symY, 24), (Instr.symZ, 25)]

/-- The letter rows of spec/opcode_table.json with their values (30_encoding.md R66). -/
def letterInstrs : List ((Bool → Instr) × SymVal) :=
  lettersToI ++ lettersToR ++ lettersToZ

/-- The digit rows of spec/opcode_table.json with their values (30_encoding.md R66). -/
def digitInstrs : List (Instr × SymVal) :=
  [(.sym2, 26), (.sym3, 27), (.sym4, 28), (.sym5, 29), (.sym6, 30), (.sym7, 31)]

/-- Two operands agree on the bits the command code `op` uses (30_encoding.md R60): `B32_START` bit 0, `B32_PUSH` bits 7:0, `HOTP` all,
the others none. -/
def agreeOnUsedBits (op : BitVec 3) (a b : BitVec 64) : Prop :=
  (op = 1 → a.getLsbD 0 = b.getLsbD 0) ∧ (op = 2 → a.toNat % 256 = b.toNat % 256) ∧ (op = 4 → a = b)

/-- The byte `i` of a number of `n` bytes, byte 0 most significant (20_memory.md R46). -/
def laneByte (n x i : Nat) : Nat := x / 256 ^ (n - 1 - i) % 256

end Sys2Proof.Statements

open Sys2Proof.Statements

/-- 10_state.md R27, the whole table. -/
def Obligations.ResetRegistersHoldTableValues : Prop :=
  State.reset.phase = .idle ∧ State.reset.mode = .generic ∧ (∀ i : Fin 10, State.reset.key[i] = 0) ∧
    State.reset.keyValid = false ∧ (∀ i : Fin 8, State.reset.msg[i] = 0) ∧ (∀ i : Fin 6, State.reset.codeD[i] = 0) ∧
    State.reset.codeBin = 0 ∧ State.reset.codeValid = false ∧ State.reset.err = 0 ∧ State.reset.fault = false ∧
    State.reset.acc = 0 ∧ State.reset.nbits = 0 ∧ State.reset.gpos = 0 ∧ State.reset.nsym = 0 ∧ State.reset.nbytes = 0

/-- 70_reset_and_hazards.md R220. -/
def Obligations.ResetInputBeatsCommandAndResponse : Prop :=
  ∀ (s : State) (p : PortSlot) (rest : List PortSlot), s.inputs = p :: rest → p.rst = true →
    ∃ t, step s = .next t ∧ { t with inputs := State.reset.inputs, events := State.reset.events } = State.reset ∧
      t.events = s.events ∧ newEvents s t = [] ∧ statusWord t = 0 ∧ codeBcdPort t = 0 ∧ codeBinPort t = 0 ∧
      hmacKeyPort t = 0 ∧ hmacMsgPort t = 0

/-- 70_reset_and_hazards.md section 1 (R222, an inference the spec marks as its own). -/
def Obligations.LateResponseAfterResetSetsFault : Prop :=
  ∀ (s : State) (len : Byte) (d : Digest) (rest : List PortSlot), s.inputs = resetSlot :: responseSlot len d :: rest →
    Sys2Proof.core.run 2 s = .next { State.reset with fault := true, inputs := rest, events := s.events }

/-- 20_memory.md R43 and 30_encoding.md R60, R64 in the model's terms (log 1, log 7). -/
def Obligations.PresentedTransactionIsDecodedAndRun : Prop :=
  ∀ (s : State) (p : PortSlot) (rest : List PortSlot), s.inputs = p :: rest → p.rst = false →
    (p.hmacRespValid = true → p.cmdValid = false →
      step s = exec (decode (.resp (respWord p.hmacRespLen p.hmacRespDigest))) { s with inputs := rest }) ∧
    (p.hmacRespValid = true → p.cmdValid = true →
      step s = exec (decode (.resp (respWord p.hmacRespLen p.hmacRespDigest)))
        { s with inputs := { p with hmacRespValid := false } :: rest }) ∧
    (p.hmacRespValid = false → p.cmdValid = true →
      step s = exec (decode (.cmd (cmdWord p.cmdOp p.cmdArg))) { s with inputs := rest })

/-- 20_memory.md R50, "the response goes first"; the two steps are the model's form (log 7). -/
def Obligations.ResponseRunsBeforeCommand : Prop :=
  ∀ (s t : State) (p : PortSlot) (rest : List PortSlot), s.inputs = p :: rest → p.rst = false →
    p.hmacRespValid = true → p.cmdValid = true →
    exec (.hmacResp p.hmacRespLen p.hmacRespDigest) { s with inputs := { p with hmacRespValid := false } :: rest } = .next t →
    step s = .next t ∧ step t = exec (decode (.cmd (cmdWord p.cmdOp p.cmdArg))) { t with inputs := rest }

/-- 20_memory.md R43, "with no transaction presented the state does not change and no event is produced"; the list of slots is the model's (log 1). -/
def Obligations.NothingPresentedChangesNothing : Prop :=
  (∀ s : State, s.inputs = [] → step s = .next s) ∧
    ∀ (s : State) (p : PortSlot) (rest : List PortSlot), s.inputs = p :: rest → p.rst = false → p.cmdValid = false →
      p.hmacRespValid = false → step s = .next { s with inputs := rest }

/-- 30_encoding.md R60, R64, R65 in the model's terms (log 1, log 3, log 9). -/
def Obligations.TableWordPresentedIsRun : Prop :=
  ∀ (s : State) (nbits w : Nat) (i : Instr), decodeTableWord nbits w = some i →
    step (s.withFetchWord nbits w) = exec i s

/-- 20_memory.md R43, "The block accepts every transaction presented to it". -/
def Obligations.EveryTransactionIsAccepted : Prop :=
  (∀ s : State, ∃ t, step s = .next t) ∧ ∀ (i : Instr) (s : State), ∃ t, exec i s = .next t

/-- 20_memory.md R44; "at most one event" is the spec's own inference. -/
def Obligations.EventsOfAStepAreAtMostOneAndCloseWithErr : Prop :=
  ∀ (i : Instr) (s t : State), Inv s → exec i s = .next t →
    t.inputs = s.inputs ∧
    (t.events = s.events ∨ ∃ ev, t.events = s.events ++ [ev] ∧ (∀ e, ev = .decDone e → e = t.err) ∧
      (∀ e, ev = .codeDone e → e = t.err) ∧ ∀ k m, ev = .hmacReq k m → k = t.key ∧ m = t.msg)

/-- 30_encoding.md R60, R64, R66 and the printed forms of R72. -/
def Obligations.SampleWordsDecodeToTheirInstructions : Prop :=
  decodeTableWord 72 0x00000000000000000 = some .nop ∧ decodeTableWord 72 0x10000000000000001 = some (.b32Start .secret) ∧
    decodeTableWord 72 0x1fffffffffffffffe = some (.b32Start .generic) ∧
    decodeTableWord 72 0x20000000000000047 = some (.b32Push 0x47) ∧ decodeTableWord 72 0x30000000000000000 = some .b32End ∧
    decodeTableWord 72 0x40000000000000001 = some (.hotp 1) ∧ decodeTableWord 72 0x50000000000000000 = some .reserved5 ∧
    decodeTableWord 72 0x600000000deadbeef = some .reserved6 ∧ decodeTableWord 72 0x700000000deadbeef = some .reserved7 ∧
    decodeTableWord 168 0x14cc93cf18508d94934c64b65d8ba7667fb7cde4b0 =
      some (.hmacResp 20 0xcc93cf18508d94934c64b65d8ba7667fb7cde4b0) ∧
    decodeTableWord 8 0b01001101 = some (.symM false) ∧ decodeTableWord 8 0b01101101 = some (.symM true) ∧
    decodeTableWord 8 0b00110111 = some .sym7 ∧ decodeTableWord 8 0b00111101 = some .pad ∧
    decodeTableWord 8 0b00110001 = some (.invalid 0x31)

/-- 30_encoding.md R60, R61, R64, R66: no bit of an operand is dropped. -/
def Obligations.DecodeOfEncodeIsTheInstruction : Prop :=
  ∀ i : Instr, i.wf = true → decode (encode i) = i

/-- 30_encoding.md R60, R63, R64, R66 ("It is total on the 256 byte values"); the 197 bytes of R69 are the spec's own inference. -/
def Obligations.EveryWordDecodesWellFormed : Prop :=
  (∀ tw : TableWord, (decode tw).wf = true ∧ (decode tw).tableRow.matchesWord tw = true) ∧
    (∀ ch : Byte, encode (decode (.sym ch)) = .sym ch) ∧ (∀ w : RespWord, encode (decode (.resp w)) = .resp w) ∧
    ((List.range 256).filter fun n => isInvalidByte (BitVec.ofNat 8 n)).length = 197

/-- 30_encoding.md R61 with the code table of R60. -/
def Obligations.CommandCodeSelectsCommand : Prop :=
  ∀ arg : BitVec 64,
    decodeCmd (cmdWord 0 arg) = .nop ∧
    (arg.toNat % 2 = 0 → decodeCmd (cmdWord 1 arg) = .b32Start .generic) ∧
    (arg.toNat % 2 = 1 → decodeCmd (cmdWord 1 arg) = .b32Start .secret) ∧
    decodeCmd (cmdWord 2 arg) = .b32Push (BitVec.ofNat 8 (arg.toNat % 256)) ∧
    decodeCmd (cmdWord 3 arg) = .b32End ∧ decodeCmd (cmdWord 4 arg) = .hotp arg ∧
    decodeCmd (cmdWord 5 arg) = .reserved5 ∧ decodeCmd (cmdWord 6 arg) = .reserved6 ∧ decodeCmd (cmdWord 7 arg) = .reserved7

/-- 30_encoding.md R62. -/
def Obligations.IgnoredOperandBitsChangeNothing : Prop :=
  ∀ (op : BitVec 3) (a b : BitVec 64), agreeOnUsedBits op a b → decodeCmd (cmdWord op a) = decodeCmd (cmdWord op b)

/-- 30_encoding.md R64. -/
def Obligations.ResponseFieldsAreLenAndDigest : Prop :=
  (∀ w : RespWord, decodeResp w = .hmacResp (BitVec.ofNat 8 (w.toNat / 2 ^ 160)) (BitVec.ofNat 160 (w.toNat % 2 ^ 160)) ∧
      ∀ i, i < 20 → (digestByte (respDigestField w) i).toNat = w.toNat / 2 ^ (8 * (19 - i)) % 256) ∧
    ∀ (len : Byte) (d d' : Digest) (s : State), len ≠ 20 → exec (.hmacResp len d) s = exec (.hmacResp len d') s

/-- 30_encoding.md R66 (the codes and values are marked there as from general knowledge, G1, G2). -/
def Obligations.ClassifyIsTheAlphabetTable : Prop :=
  (∀ k : Fin 26, classify (BitVec.ofNat 8 (0x41 + k.val)) = .sym (BitVec.ofNat 5 k.val) ∧
      classify (BitVec.ofNat 8 (0x61 + k.val)) = .sym (BitVec.ofNat 5 k.val)) ∧
    (∀ k : Fin 6, classify (BitVec.ofNat 8 (0x32 + k.val)) = .sym (BitVec.ofNat 5 (26 + k.val))) ∧
    classify 0x3D = .pad ∧ ∀ ch : Byte, classify ch = .invalid ↔ isInvalidByte ch = true

/-- 45_token_engine.md R170. -/
def Obligations.NopChangesNothing : Prop :=
  (∀ arg : BitVec 64, decodeCmd (cmdWord 0 arg) = .nop) ∧ ∀ s : State, exec .nop s = .next s

/-- 40_base32_decoder.md R95. -/
def Obligations.B32StartOpensTransaction : Prop :=
  (∀ arg : BitVec 64, decodeCmd (cmdWord 1 arg) = .b32Start (if arg.getLsbD 0 then .secret else .generic)) ∧
    (∀ s : State, s.phase = .idle ∨ s.phase = .decoding →
      exec (.b32Start .generic) s = .next { s with
        phase := .decoding, mode := .generic, err := 0, acc := 0, nbits := 0, gpos := 0, nsym := 0, nbytes := 0 } ∧
      exec (.b32Start .secret) s = .next { s with
        phase := .decoding, mode := .secret, err := 0, acc := 0, nbits := 0, gpos := 0, nsym := 0, nbytes := 0,
        keyValid := false, key := Vector.replicate 10 0 }) ∧
    ∀ (m : Mode) (s : State), s.phase = .waitHmac → exec (.b32Start m) s = .next { s with fault := true }

/-- 40_base32_decoder.md R94, R98; the arithmetic on numbers. -/
def Obligations.PushedSymbolInGenericMode : Prop :=
  (∀ (ch : Byte) (v : SymVal), classify ch = .sym v → PushesGenericSymbol v (exec (.b32Push ch))) ∧
    (∀ (ch : Byte) (s : State), classify ch = .pad → s.phase = .decoding → s.mode = .generic → s.err = 0 →
      exec (.b32Push ch) s = .next s) ∧
    ∀ (ch : Byte) (s : State), classify ch = .invalid → s.phase = .decoding → s.mode = .generic → s.err = 0 →
      exec (.b32Push ch) s = .next { s with err := 2 }

/-- 40_base32_decoder.md R97. -/
def Obligations.PushedSymbolInSecretMode : Prop :=
  (∀ (ch : Byte) (v : SymVal), classify ch = .sym v → PushesSecretSymbol v (exec (.b32Push ch))) ∧
    ∀ (ch : Byte) (s : State), classify ch = .pad ∨ classify ch = .invalid → s.phase = .decoding → s.mode = .secret →
      s.err = 0 → exec (.b32Push ch) s = .next { s with err := 1 }

/-- 40_base32_decoder.md R96 apart from what R97 and R98 say; 60_exceptions.md R200 (b). -/
def Obligations.PushAfterErrorOrOutsideTransaction : Prop :=
  (∀ (ch : Byte) (s : State), s.phase = .decoding → s.err ≠ 0 → exec (.b32Push ch) s = .next s) ∧
    (∀ (ch : Byte) (s : State), s.phase ≠ .decoding → exec (.b32Push ch) s = .next { s with fault := true }) ∧
    ∀ (ch : Byte) (s t : State), exec (.b32Push ch) s = .next t → t.phase = s.phase ∧ t.mode = s.mode

/-- 30_encoding.md R66, R67 with 40_base32_decoder.md R94, R97, R98; the rows as instructions are log 3 (DEDUCED). -/
def Obligations.LetterRowsPushTheirValue : Prop :=
  ∀ r ∈ letterInstrs, ∀ lower : Bool,
    PushesGenericSymbol r.2 (exec (r.1 lower)) ∧ PushesSecretSymbol r.2 (exec (r.1 lower))

/-- 30_encoding.md R66 with 40_base32_decoder.md R94, R97, R98; the rows as instructions are log 3 (DEDUCED). -/
def Obligations.DigitRowsPushTheirValue : Prop :=
  ∀ r ∈ digitInstrs, PushesGenericSymbol r.2 (exec r.1) ∧ PushesSecretSymbol r.2 (exec r.1)

/-- 30_encoding.md R68, R69 with 40_base32_decoder.md R97, R98; the rows as instructions are log 3 (DEDUCED). -/
def Obligations.PadAndInvalidRows : Prop :=
  ∀ (ch : Byte) (s : State), s.phase = .decoding → s.err = 0 →
    (s.mode = .generic → exec .pad s = .next s ∧ exec (.invalid ch) s = .next { s with err := 2 }) ∧
    (s.mode = .secret → exec .pad s = .next { s with err := 1 } ∧ exec (.invalid ch) s = .next { s with err := 1 })

/-- 30_encoding.md R69, last paragraph: the 34 rows agree with classify (an inference the spec marks as its own; log 3). -/
def Obligations.PushRunsTheRowOfItsCharacter : Prop :=
  ∀ (ch : Byte) (s : State), exec (.b32Push ch) s = exec (decode (.sym ch)) s

/-- 40_base32_decoder.md R94 with the invariant of 10_state.md R22. -/
def Obligations.AcceptConservesBits : Prop :=
  ∀ (acc : BitVec 7) (nbits : BitVec 3) (v : SymVal), acc.toNat < 2 ^ nbits.toNat →
    (nbitsAfter nbits).toNat = (nbits.toNat + 5) % 8 ∧
    (accAfter acc nbits v).toNat < 2 ^ (nbitsAfter nbits).toNat ∧
    (nbits.toNat < 3 → completedByte acc nbits v = none ∧ acc.toNat * 32 + v.toNat = (accAfter acc nbits v).toNat) ∧
    (3 ≤ nbits.toNat → ∃ b, completedByte acc nbits v = some b ∧
      acc.toNat * 32 + v.toNat = b.toNat * 2 ^ (nbitsAfter nbits).toNat + (accAfter acc nbits v).toNat)

/-- 40_base32_decoder.md R97, corner cases, and 44_decimal_formatter.md R160 (inferences the spec marks as its own). -/
def Obligations.KeyIndexStaysInRange : Prop :=
  ∀ (s : State) (v : SymVal) (b : Byte), Inv s → s.phase = .decoding → s.mode = .secret → s.nsym ≠ 16 →
    completedByte s.acc s.nbits v = some b →
    s.nbytes.toNat ≤ 9 ∧ (s.nsym + 1).toNat = s.nsym.toNat + 1 ∧ (s.nbytes + 1).toNat = s.nbytes.toNat + 1

/-- 40_base32_decoder.md R99. -/
def Obligations.B32EndGeneric : Prop :=
  (∀ arg : BitVec 64, decodeCmd (cmdWord 3 arg) = .b32End) ∧
    (∀ s : State, s.phase = .decoding → s.mode = .generic → s.err = 0 → s.gpos.toNat ∈ [1, 3, 6] →
      exec .b32End s = .next { s with err := 3, phase := .idle, events := s.events ++ [.decDone 3] }) ∧
    (∀ s : State, s.phase = .decoding → s.mode = .generic → s.err ≠ 0 ∨ s.gpos.toNat ∉ [1, 3, 6] →
      exec .b32End s = .next { s with phase := .idle, events := s.events ++ [.decDone s.err] }) ∧
    ∀ s : State, s.phase ≠ .decoding → exec .b32End s = .next { s with fault := true }

/-- 40_base32_decoder.md R100. -/
def Obligations.B32EndSecret : Prop :=
  (∀ s : State, s.phase = .decoding → s.mode = .secret → s.err = 0 → s.nsym = 16 →
      exec .b32End s = .next { s with keyValid := true, phase := .idle, events := s.events ++ [.decDone 0] }) ∧
    (∀ s : State, s.phase = .decoding → s.mode = .secret → s.err = 0 → s.nsym ≠ 16 →
      exec .b32End s = .next { s with err := 1, phase := .idle, events := s.events ++ [.decDone 1] }) ∧
    (∀ s : State, s.phase = .decoding → s.mode = .secret → s.err ≠ 0 →
      exec .b32End s = .next { s with phase := .idle, events := s.events ++ [.decDone s.err] }) ∧
    ∀ s : State, s.phase ≠ .decoding → exec .b32End s = .next { s with fault := true }

/-- 45_token_engine.md R171, 41_counter_packer.md R121. -/
def Obligations.HotpRequestsOrFails : Prop :=
  (∀ arg : BitVec 64, decodeCmd (cmdWord 4 arg) = .hotp arg) ∧
    (∀ (c : Counter) (s : State), s.phase = .idle → s.keyValid = true →
      exec (.hotp c) s = .next { s with
        codeValid := false, err := 0, msg := pack64be c, phase := .waitHmac,
        events := s.events ++ [.hmacReq s.key (pack64be c)] }) ∧
    (∀ (c : Counter) (s : State), s.phase = .idle → s.keyValid = false →
      exec (.hotp c) s = .next { s with codeValid := false, err := 4, events := s.events ++ [.codeDone 4] }) ∧
    ∀ (c : Counter) (s : State), s.phase ≠ .idle → exec (.hotp c) s = .next { s with fault := true }

/-- 41_counter_packer.md R120, its definition; what the spec infers from it is CounterPackingIsABijection. -/
def Obligations.CounterIsPackedBigEndian : Prop :=
  ∀ (c : Counter) (i : Fin 8), (pack64be c)[i] = c.extractLsb' (56 - 8 * i.val) 8 ∧
    (pack64be c)[i].toNat = c.toNat / 2 ^ (56 - 8 * i.val) % 256

/-- 41_counter_packer.md R120, third sentence (an inference the spec marks as its own). -/
def Obligations.CounterPackingIsABijection : Prop :=
  (∀ c : Counter, c.toNat = bytesNumber (pack64be c).toList) ∧
    (∀ c c' : Counter, pack64be c = pack64be c' → c = c') ∧ ∀ m : Msg, ∃ c, pack64be c = m

/-- 42_hmac_sha1_interface.md R140. -/
def Obligations.HmacRespEndsTheCall : Prop :=
  (∀ (d : Digest) (s : State), s.phase = .waitHmac →
      exec (.hmacResp 20 d) s = .next { s with
        codeD := Vector.ofFn (fun i : Fin 6 => digit (numericCode (truncate d)) i.val),
        codeBin := numericCode (truncate d), codeValid := true, phase := .idle,
        events := s.events ++ [.codeDone 0] }) ∧
    (∀ (len : Byte) (d : Digest) (s : State), s.phase = .waitHmac → len ≠ 20 →
      exec (.hmacResp len d) s = .next { s with err := 6, phase := .idle, events := s.events ++ [.codeDone 6] }) ∧
    ∀ (len : Byte) (d : Digest) (s : State), s.phase ≠ .waitHmac →
      exec (.hmacResp len d) s = .next { s with fault := true }

/-- 30_encoding.md R63. -/
def Obligations.ReservedCodesOnlySetFault : Prop :=
  (∀ arg : BitVec 64, decodeCmd (cmdWord 5 arg) = .reserved5 ∧ decodeCmd (cmdWord 6 arg) = .reserved6 ∧
      decodeCmd (cmdWord 7 arg) = .reserved7) ∧
    ∀ s : State, exec .reserved5 s = .next { s with fault := true } ∧ exec .reserved6 s = .next { s with fault := true } ∧
      exec .reserved7 s = .next { s with fault := true }

/-- 43_dynamic_truncator.md R145 to R148, on numbers. -/
def Obligations.TruncateReadsTheWindow : Prop :=
  ∀ d : Digest,
    truncOffset d = (digestByte d 19).toNat % 16 ∧
    (raw32 d).toNat = (digestByte d (truncOffset d)).toNat * 2 ^ 24 + (digestByte d (truncOffset d + 1)).toNat * 2 ^ 16
      + (digestByte d (truncOffset d + 2)).toNat * 2 ^ 8 + (digestByte d (truncOffset d + 3)).toNat ∧
    (truncate d).toNat = (raw32 d).toNat % 2 ^ 31

/-- 43_dynamic_truncator.md R145 to R149 put together (R149 is an inference the spec marks as its own). -/
def Obligations.TruncateInClosedForm : Prop :=
  ∀ d : Digest, (truncate d).toNat = d.toNat / 2 ^ (8 * (16 - d.toNat % 16)) % 2 ^ 31

/-- 43_dynamic_truncator.md R149 (an inference the spec marks as its own). -/
def Obligations.TruncateIgnoresBytesOutsideTheWindow : Prop :=
  ∀ d d' : Digest, (digestByte d 19).toNat % 16 = (digestByte d' 19).toNat % 16 →
    (digestByte d (truncOffset d)).toNat % 128 = (digestByte d' (truncOffset d)).toNat % 128 →
    (∀ j, 1 ≤ j → j ≤ 3 → digestByte d (truncOffset d + j) = digestByte d' (truncOffset d + j)) →
    truncate d = truncate d' 

/-- 44_decimal_formatter.md R156, R157. -/
def Obligations.CodeIsSixDecimalDigits : Prop :=
  (∀ b : BitVec 31, b.toNat ≤ 2147483647 ∧ (numericCode b).toNat = b.toNat % 1000000 ∧
      (numericCode b).toNat ≤ 999999 ∧ b.toNat / 1000000 ≤ 2147) ∧
    ∀ n : BitVec 20, n.toNat ≤ 999999 →
      ∀ i, i < 6 → (digit n i).toNat = n.toNat / 10 ^ (5 - i) % 10 ∧ (digit n i).toNat ≤ 9

/-- 44_decimal_formatter.md R157, last sentence, and 10_state.md R15 (inferences the spec marks as its own). -/
def Obligations.DigitsSpellTheCode : Prop :=
  (∀ n : BitVec 20, n.toNat ≤ 999999 → n.toNat = codeNumber (digits n)) ∧
    ∀ n m : BitVec 20, n.toNat ≤ 999999 → m.toNat ≤ 999999 → digits n = digits m → n = m

/-- 45_token_engine.md R178, 60_exceptions.md R199; for the rows of format SYM log 3 (DEDUCED). -/
def Obligations.PhaseTableDecidesAcceptanceAndNextPhase : Prop :=
  ∀ (i : Instr) (s t : State), exec i s = .next t →
    (accepts s.phase i = true → t.phase = phaseAfter s i ∧ t.fault = s.fault) ∧
    (accepts s.phase i = false → t = { s with fault := true })

/-- 10_state.md R18; 10_state.md R28 (j) is an inference the spec marks as its own. -/
def Obligations.FaultIsStickyAndInert : Prop :=
  ∀ (i : Instr) (s t : State) (f : Bool), exec i s = .next t →
    (s.fault = true → t.fault = true) ∧
    exec i { s with fault := f } = .next { t with fault := f || (t.fault && !s.fault) || !accepts s.phase i }

/-- 10_state.md R12 to R16, R19, the sentences that say who writes each register; for the rows of format SYM log 3 (DEDUCED). -/
def Obligations.OnlyTheNamedTransactionsWriteTheDataRegisters : Prop :=
  ∀ (i : Instr) (s t : State), exec i s = .next t →
    (t.key ≠ s.key → (i = .b32Start .secret ∧ s.phase ≠ .waitHmac) ∨ ((pushedClass i).isSome = true ∧ secretOpen s = true)) ∧
    (t.keyValid = true → s.keyValid = false → i = .b32End ∧ secretOpen s = true ∧ s.nsym = 16) ∧
    (t.keyValid = false → s.keyValid = true → i = .b32Start .secret ∧ s.phase ≠ .waitHmac) ∧
    (t.msg ≠ s.msg → ∃ c, i = .hotp c ∧ s.phase = .idle ∧ s.keyValid = true ∧ t.msg = pack64be c) ∧
    (t.codeD ≠ s.codeD ∨ t.codeBin ≠ s.codeBin → ∃ d, i = .hmacResp 20 d ∧ s.phase = .waitHmac) ∧
    (t.codeValid = true → s.codeValid = false → ∃ d, i = .hmacResp 20 d ∧ s.phase = .waitHmac) ∧
    (t.codeValid = false → s.codeValid = true → ∃ c, i = .hotp c ∧ s.phase = .idle) ∧
    (t.mode ≠ s.mode → i = .b32Start t.mode ∧ s.phase ≠ .waitHmac)

/-- 10_state.md R12, "While `KEY_VALID = 1` no command but a secret-mode `B32_START` changes it". -/
def Obligations.ValidKeyChangesOnlyBySecretStart : Prop :=
  ∀ (i : Instr) (s t : State), Inv s → s.keyValid = true → exec i s = .next t →
    (t.key = s.key ∧ t.keyValid = true) ∨ (i = .b32Start .secret ∧ s.phase ≠ .waitHmac)

/-- 10_state.md R17, 60_exceptions.md R200 (a), R201. -/
def Obligations.OpenTransactionKeepsItsFirstError : Prop :=
  ∀ (i : Instr) (s t : State), Inv s → s.err ≠ 0 → exec i s = .next t →
    t.err = s.err ∨ (∃ m, i = .b32Start m ∧ t.err = 0) ∨ ∃ c, i = .hotp c ∧ s.phase = .idle

/-- 60_exceptions.md R203, 42_hmac_sha1_interface.md R132, R143. -/
def Obligations.OnlyAResponseLeavesTheWait : Prop :=
  ∀ (i : Instr) (s t : State), s.phase = .waitHmac → exec i s = .next t →
    ((∀ len d, i ≠ .hmacResp len d) ∧ (t = s ∨ t = { s with fault := true }) ∧ t.phase = .waitHmac ∧
      hmacKeyPort t = hmacKeyPort s ∧ hmacMsgPort t = hmacMsgPort s) ∨
    ((∃ len d, i = .hmacResp len d) ∧ t.phase = .idle ∧ t.key = s.key ∧ t.msg = s.msg ∧ t.fault = s.fault)

/-- 60_exceptions.md R204 ("no command reads `KEY` back"), 42_hmac_sha1_interface.md R132. -/
def Obligations.KeyIsNotReadBack : Prop :=
  ∀ (i : Instr) (s t : State) (k : Key), exec i s = .next t →
    (∃ k' evs, exec i { s with key := k } = .next { t with key := k', events := evs } ∧
      ((∃ c, i = .hotp c ∧ s.phase = .idle ∧ s.keyValid = true) ∨ evs = t.events)) ∧
    (t.phase ≠ .waitHmac → hmacKeyPort t = 0)

/-- 10_state.md R26 with R21 and 42_hmac_sha1_interface.md R132, on numbers. -/
def Obligations.OutputPortsShowTheState : Prop :=
  ∀ s : State,
    (statusWord s).toNat = (match s.phase with | .idle => 0 | .decoding => 1 | .waitHmac => 2)
      + (match s.mode with | .generic => 0 | .secret => 4) + (if s.keyValid then 8 else 0)
      + (if s.codeValid then 16 else 0) + (if s.fault then 32 else 0) + 64 * s.err.toNat ∧
    (∀ i : Fin 6, (codeBcdPort s).toNat / 16 ^ (5 - i.val) % 16 = s.codeD[i].toNat) ∧
    codeBinPort s = s.codeBin ∧
    (s.phase = .waitHmac → ∀ i : Fin 10, laneByte 10 (hmacKeyPort s).toNat i.val = s.key[i].toNat) ∧
    (s.phase = .waitHmac → ∀ i : Fin 8, laneByte 8 (hmacMsgPort s).toNat i.val = s.msg[i].toNat) ∧
    (s.phase ≠ .waitHmac → hmacKeyPort s = 0 ∧ hmacMsgPort s = 0)

/-- 20_memory.md R46 (its last sentence is an inference the spec marks as its own), 42_hmac_sha1_interface.md R130 to R132. -/
def Obligations.RequestPortsCarryKeyAndCounter : Prop :=
  ∀ (c : Counter) (s : State), s.phase = .idle → s.keyValid = true →
    ∃ t, exec (.hotp c) s = .next t ∧ hmacMsgPort t = c ∧
      (∀ i : Fin 10, laneByte 10 (hmacKeyPort t).toNat i.val = s.key[i].toNat) ∧
      (outputPorts s t).hmacReqValid = true ∧ (outputPorts s t).decByteValid = false ∧
      (outputPorts s t).decDone = false ∧ (outputPorts s t).codeDone = false

/-- 10_state.md R28 (an inference the spec marks as its own) in the one-state form of Safety.Inv and Safety.KeyTracks. -/
def Obligations.InvariantHoldsAtReset : Prop :=
  Inv State.reset ∧ KeyTracks State.reset ⟨[], []⟩

/-- 10_state.md R28 (an inference the spec marks as its own) in the one-state form of Safety.Inv. -/
def Obligations.EveryStepKeepsTheInvariant : Prop :=
  ∀ s t : State, Inv s → step s = .next t → Inv t

/-- 10_state.md R28 (g) (an inference the spec marks as its own); the rows of format SYM are pushes by log 3. -/
def Obligations.KeyIsTheLastLoadedSecretDecoded : Prop :=
  ∀ (i : Instr) (s t : State) (h : SecretHistory), KeyTracks s h → exec i s = .next t →
    KeyTracks t (historyAfter s i h)

/-- 40_base32_decoder.md R101 (an inference the spec marks as its own), 45_token_engine.md R175. -/
def Obligations.GenericTransactionComputesDecode : Prop :=
  ∀ (s : State) (cs : List Byte), s.phase ≠ .waitHmac →
    ∃ (t : State) (bs : List Byte) (e : BitVec 4), execSeq (decodeString cs) s = .next t ∧
      t.events = s.events ++ (bs.map Event.decByte ++ [.decDone e]) ∧ t.err = e ∧ t.phase = .idle ∧
      (∀ out, b32decode cs = .ok out → e = 0 ∧ bs = out) ∧ (∀ x, b32decode cs = .err x → e = errorCode x) ∧
      t.key = s.key ∧ t.keyValid = s.keyValid ∧ t.msg = s.msg ∧ t.codeD = s.codeD ∧ t.codeBin = s.codeBin ∧
      t.codeValid = s.codeValid ∧ t.fault = s.fault ∧ t.inputs = s.inputs

/-- 40_base32_decoder.md R102, last sentence (an inference the spec marks as its own). -/
def Obligations.GenericTransactionStreamsTheSymbolsBeforeAnError : Prop :=
  ∀ (s : State) (cs : List Byte), s.phase ≠ .waitHmac →
    ∃ (t : State) (e : BitVec 4), execSeq (decodeString cs) s = .next t ∧
      t.events = s.events ++
        ((bytesOfSymbols (symbolsOf (cs.takeWhile fun ch => classify ch ≠ .invalid))
          (5 * (symbolsOf (cs.takeWhile fun ch => classify ch ≠ .invalid)).length / 8)).map Event.decByte ++ [.decDone e])

/-- 40_base32_decoder.md R105 (an inference the spec marks as its own), 45_token_engine.md R174. -/
def Obligations.SecretTransactionLoadsTheKey : Prop :=
  ∀ (s : State) (cs : List Byte), s.phase ≠ .waitHmac →
    ∃ t, execSeq (loadSecret cs) s = .next t ∧ t.phase = .idle ∧ t.mode = .secret ∧
      (validSecret cs = true → t.events = s.events ++ [.decDone 0] ∧ t.err = 0 ∧ t.keyValid = true ∧
        b32decode cs = .ok t.key.toList) ∧
      (validSecret cs = false → t.events = s.events ++ [.decDone 1] ∧ t.err = 1 ∧ t.keyValid = false) ∧
      t.msg = s.msg ∧ t.codeD = s.codeD ∧ t.codeBin = s.codeBin ∧ t.codeValid = s.codeValid ∧ t.fault = s.fault ∧
      t.inputs = s.inputs

/-- 45_token_engine.md R173 (an inference the spec marks as its own), for the uninterpreted HMAC (log 4). -/
def Obligations.WholeCallComputesHotp : Prop :=
  ∀ (s : State) (c : Counter), s.phase = .idle → s.keyValid = true →
    execSeq [.hotp c, dutifulAnswer s.key (pack64be c)] s = .next { s with
      codeValid := true, err := 0, msg := pack64be c, codeD := hotp s.key c, codeBin := hotpBin s.key c,
      events := s.events ++ [.hmacReq s.key (pack64be c), .codeDone 0] } ∧
    (hotpBin s.key c).toNat = codeNumber (hotp s.key c)

/-- 40_base32_decoder.md R90, R91, R92 (the length formula and the 10 bytes are inferences the spec marks as its own). -/
def Obligations.DecodeLengthIsFiveEighths : Prop :=
  (∀ cs : List Byte, b32decode cs = .err .invalidCharacter ↔ ∃ ch ∈ cs, classify ch = .invalid) ∧
    (∀ cs : List Byte, b32decode cs = .err .invalidPadding ↔
      (∀ ch ∈ cs, classify ch ≠ .invalid) ∧ (symbolsOf cs).length % 8 ∈ [1, 3, 6]) ∧
    (∀ (cs : List Byte) (out : List Byte), b32decode cs = .ok out → out.length = 5 * (symbolsOf cs).length / 8) ∧
    ∀ cs : List Byte, validSecret cs = true → ∃ out, b32decode cs = .ok out ∧ out.length = 10

/-- 40_base32_decoder.md R104, 30_encoding.md R67, R68. -/
def Obligations.PadsAndCaseDoNotChangeTheDecoding : Prop :=
  (∀ cs : List Byte, b32decode (cs.filter fun ch => ch ≠ 0x3D) = b32decode cs) ∧
    (∀ cs : List Byte, b32decode (cs.map normaliseCase) = b32decode cs) ∧
    (∀ cs : List Byte, validSecret (cs.map normaliseCase) = validSecret cs) ∧
    ∀ cs : List Byte, 0x3D ∈ cs → validSecret cs = false

/-- 45_token_engine.md R176. -/
def Obligations.TotpIsHotpOfTheStep : Prop :=
  ∀ t : BitVec 64, ∃ c : Counter, totp t = .hotp c ∧ c.toNat = t.toNat / 30 ∧ c.toNat * 30 ≤ t.toNat ∧
    t.toNat < c.toNat * 30 + 30

/-- 60_exceptions.md R207 (an inference the spec marks as its own), for the step that raises. -/
def Obligations.ErrorsLeaveWhatTheTableSays : Prop :=
  ∀ (i : Instr) (s t : State), Inv s → exec i s = .next t → t.err ≠ s.err → t.err ≠ 0 →
    t.key = s.key ∧ t.msg = s.msg ∧ t.codeD = s.codeD ∧ t.codeBin = s.codeBin ∧ t.keyValid = s.keyValid ∧
    (t.err = 1 → t.keyValid = false ∧ t.codeValid = s.codeValid ∧ s.mode = .secret) ∧
    (t.err = 2 ∨ t.err = 3 → t.codeValid = s.codeValid ∧ s.mode = .generic) ∧
    (t.err = 4 → t.keyValid = false ∧ t.codeValid = false ∧ t.phase = .idle) ∧
    (t.err = 6 → t.keyValid = true ∧ t.codeValid = false ∧ t.phase = .idle)

/-- 70_reset_and_hazards.md R233, R238, R239 (an inference the spec marks as its own), for the uninterpreted HMAC (log 4). -/
def Obligations.DutifulAnswerEndsTheCallWell : Prop :=
  ∀ (s : State) (len : Byte) (d : Digest) (c : Counter), Inv s → UnitKeepsDuties s (.hmacResp len d) →
    s.msg = pack64be c →
    ∃ t, exec (.hmacResp len d) s = .next t ∧ t.codeD = hotp s.key c ∧ t.codeBin = hotpBin s.key c ∧
      t.codeValid = true ∧ t.err = 0 ∧ t.key = s.key ∧ t.keyValid = true ∧ protocolKept t = protocolKept s ∧
      (s.inputs = [] → endedWell t = true)
end

