-- ==== Sys2Proof/Laws/State.lean ====
section
/-! SUPPORT. One lemma per field per shared update of State, all true by unfolding, so that no later proof unfolds a record update. -/

namespace Sys2Proof.Machine

/-! ### raise -/

@[simp] theorem raise_phase (e : ErrorName) (s : State) : (raise e s).phase = s.phase := rfl
@[simp] theorem raise_mode (e : ErrorName) (s : State) : (raise e s).mode = s.mode := rfl
@[simp] theorem raise_key (e : ErrorName) (s : State) : (raise e s).key = s.key := rfl
@[simp] theorem raise_keyValid (e : ErrorName) (s : State) : (raise e s).keyValid = s.keyValid := rfl
@[simp] theorem raise_msg (e : ErrorName) (s : State) : (raise e s).msg = s.msg := rfl
@[simp] theorem raise_codeD (e : ErrorName) (s : State) : (raise e s).codeD = s.codeD := rfl
@[simp] theorem raise_codeBin (e : ErrorName) (s : State) : (raise e s).codeBin = s.codeBin := rfl
@[simp] theorem raise_codeValid (e : ErrorName) (s : State) : (raise e s).codeValid = s.codeValid := rfl
@[simp] theorem raise_err (e : ErrorName) (s : State) : (raise e s).err = errorCode e := rfl
@[simp] theorem raise_fault (e : ErrorName) (s : State) : (raise e s).fault = s.fault := rfl
@[simp] theorem raise_acc (e : ErrorName) (s : State) : (raise e s).acc = s.acc := rfl
@[simp] theorem raise_nbits (e : ErrorName) (s : State) : (raise e s).nbits = s.nbits := rfl
@[simp] theorem raise_gpos (e : ErrorName) (s : State) : (raise e s).gpos = s.gpos := rfl
@[simp] theorem raise_nsym (e : ErrorName) (s : State) : (raise e s).nsym = s.nsym := rfl
@[simp] theorem raise_nbytes (e : ErrorName) (s : State) : (raise e s).nbytes = s.nbytes := rfl
@[simp] theorem raise_inputs (e : ErrorName) (s : State) : (raise e s).inputs = s.inputs := rfl
@[simp] theorem raise_events (e : ErrorName) (s : State) : (raise e s).events = s.events := rfl

/-! ### clearError -/

@[simp] theorem clearError_phase (s : State) : (clearError s).phase = s.phase := rfl
@[simp] theorem clearError_mode (s : State) : (clearError s).mode = s.mode := rfl
@[simp] theorem clearError_key (s : State) : (clearError s).key = s.key := rfl
@[simp] theorem clearError_keyValid (s : State) : (clearError s).keyValid = s.keyValid := rfl
@[simp] theorem clearError_msg (s : State) : (clearError s).msg = s.msg := rfl
@[simp] theorem clearError_codeD (s : State) : (clearError s).codeD = s.codeD := rfl
@[simp] theorem clearError_codeBin (s : State) : (clearError s).codeBin = s.codeBin := rfl
@[simp] theorem clearError_codeValid (s : State) : (clearError s).codeValid = s.codeValid := rfl
@[simp] theorem clearError_err (s : State) : (clearError s).err = 0 := rfl
@[simp] theorem clearError_fault (s : State) : (clearError s).fault = s.fault := rfl
@[simp] theorem clearError_acc (s : State) : (clearError s).acc = s.acc := rfl
@[simp] theorem clearError_nbits (s : State) : (clearError s).nbits = s.nbits := rfl
@[simp] theorem clearError_gpos (s : State) : (clearError s).gpos = s.gpos := rfl
@[simp] theorem clearError_nsym (s : State) : (clearError s).nsym = s.nsym := rfl
@[simp] theorem clearError_nbytes (s : State) : (clearError s).nbytes = s.nbytes := rfl
@[simp] theorem clearError_inputs (s : State) : (clearError s).inputs = s.inputs := rfl
@[simp] theorem clearError_events (s : State) : (clearError s).events = s.events := rfl

/-! ### dropWithFault -/

@[simp] theorem dropWithFault_phase (s : State) : (dropWithFault s).phase = s.phase := rfl
@[simp] theorem dropWithFault_mode (s : State) : (dropWithFault s).mode = s.mode := rfl
@[simp] theorem dropWithFault_key (s : State) : (dropWithFault s).key = s.key := rfl
@[simp] theorem dropWithFault_keyValid (s : State) : (dropWithFault s).keyValid = s.keyValid := rfl
@[simp] theorem dropWithFault_msg (s : State) : (dropWithFault s).msg = s.msg := rfl
@[simp] theorem dropWithFault_codeD (s : State) : (dropWithFault s).codeD = s.codeD := rfl
@[simp] theorem dropWithFault_codeBin (s : State) : (dropWithFault s).codeBin = s.codeBin := rfl
@[simp] theorem dropWithFault_codeValid (s : State) : (dropWithFault s).codeValid = s.codeValid := rfl
@[simp] theorem dropWithFault_err (s : State) : (dropWithFault s).err = s.err := rfl
@[simp] theorem dropWithFault_fault (s : State) : (dropWithFault s).fault = true := rfl
@[simp] theorem dropWithFault_acc (s : State) : (dropWithFault s).acc = s.acc := rfl
@[simp] theorem dropWithFault_nbits (s : State) : (dropWithFault s).nbits = s.nbits := rfl
@[simp] theorem dropWithFault_gpos (s : State) : (dropWithFault s).gpos = s.gpos := rfl
@[simp] theorem dropWithFault_nsym (s : State) : (dropWithFault s).nsym = s.nsym := rfl
@[simp] theorem dropWithFault_nbytes (s : State) : (dropWithFault s).nbytes = s.nbytes := rfl
@[simp] theorem dropWithFault_inputs (s : State) : (dropWithFault s).inputs = s.inputs := rfl
@[simp] theorem dropWithFault_events (s : State) : (dropWithFault s).events = s.events := rfl

/-! ### emit -/

@[simp] theorem emit_phase (ev : Event) (s : State) : (emit ev s).phase = s.phase := rfl
@[simp] theorem emit_mode (ev : Event) (s : State) : (emit ev s).mode = s.mode := rfl
@[simp] theorem emit_key (ev : Event) (s : State) : (emit ev s).key = s.key := rfl
@[simp] theorem emit_keyValid (ev : Event) (s : State) : (emit ev s).keyValid = s.keyValid := rfl
@[simp] theorem emit_msg (ev : Event) (s : State) : (emit ev s).msg = s.msg := rfl
@[simp] theorem emit_codeD (ev : Event) (s : State) : (emit ev s).codeD = s.codeD := rfl
@[simp] theorem emit_codeBin (ev : Event) (s : State) : (emit ev s).codeBin = s.codeBin := rfl
@[simp] theorem emit_codeValid (ev : Event) (s : State) : (emit ev s).codeValid = s.codeValid := rfl
@[simp] theorem emit_err (ev : Event) (s : State) : (emit ev s).err = s.err := rfl
@[simp] theorem emit_fault (ev : Event) (s : State) : (emit ev s).fault = s.fault := rfl
@[simp] theorem emit_acc (ev : Event) (s : State) : (emit ev s).acc = s.acc := rfl
@[simp] theorem emit_nbits (ev : Event) (s : State) : (emit ev s).nbits = s.nbits := rfl
@[simp] theorem emit_gpos (ev : Event) (s : State) : (emit ev s).gpos = s.gpos := rfl
@[simp] theorem emit_nsym (ev : Event) (s : State) : (emit ev s).nsym = s.nsym := rfl
@[simp] theorem emit_nbytes (ev : Event) (s : State) : (emit ev s).nbytes = s.nbytes := rfl
@[simp] theorem emit_inputs (ev : Event) (s : State) : (emit ev s).inputs = s.inputs := rfl
@[simp] theorem emit_events (ev : Event) (s : State) : (emit ev s).events = s.events ++ [ev] := rfl

/-! ### clearWorking -/

@[simp] theorem clearWorking_phase (s : State) : (clearWorking s).phase = s.phase := rfl
@[simp] theorem clearWorking_mode (s : State) : (clearWorking s).mode = s.mode := rfl
@[simp] theorem clearWorking_key (s : State) : (clearWorking s).key = s.key := rfl
@[simp] theorem clearWorking_keyValid (s : State) : (clearWorking s).keyValid = s.keyValid := rfl
@[simp] theorem clearWorking_msg (s : State) : (clearWorking s).msg = s.msg := rfl
@[simp] theorem clearWorking_codeD (s : State) : (clearWorking s).codeD = s.codeD := rfl
@[simp] theorem clearWorking_codeBin (s : State) : (clearWorking s).codeBin = s.codeBin := rfl
@[simp] theorem clearWorking_codeValid (s : State) : (clearWorking s).codeValid = s.codeValid := rfl
@[simp] theorem clearWorking_err (s : State) : (clearWorking s).err = s.err := rfl
@[simp] theorem clearWorking_fault (s : State) : (clearWorking s).fault = s.fault := rfl
@[simp] theorem clearWorking_acc (s : State) : (clearWorking s).acc = 0 := rfl
@[simp] theorem clearWorking_nbits (s : State) : (clearWorking s).nbits = 0 := rfl
@[simp] theorem clearWorking_gpos (s : State) : (clearWorking s).gpos = 0 := rfl
@[simp] theorem clearWorking_nsym (s : State) : (clearWorking s).nsym = 0 := rfl
@[simp] theorem clearWorking_nbytes (s : State) : (clearWorking s).nbytes = 0 := rfl
@[simp] theorem clearWorking_inputs (s : State) : (clearWorking s).inputs = s.inputs := rfl
@[simp] theorem clearWorking_events (s : State) : (clearWorking s).events = s.events := rfl

/-! ### wipeKey -/

@[simp] theorem wipeKey_phase (s : State) : (wipeKey s).phase = s.phase := rfl
@[simp] theorem wipeKey_mode (s : State) : (wipeKey s).mode = s.mode := rfl
@[simp] theorem wipeKey_key (s : State) : (wipeKey s).key = #v[0, 0, 0, 0, 0, 0, 0, 0, 0, 0] := rfl
@[simp] theorem wipeKey_keyValid (s : State) : (wipeKey s).keyValid = false := rfl
@[simp] theorem wipeKey_msg (s : State) : (wipeKey s).msg = s.msg := rfl
@[simp] theorem wipeKey_codeD (s : State) : (wipeKey s).codeD = s.codeD := rfl
@[simp] theorem wipeKey_codeBin (s : State) : (wipeKey s).codeBin = s.codeBin := rfl
@[simp] theorem wipeKey_codeValid (s : State) : (wipeKey s).codeValid = s.codeValid := rfl
@[simp] theorem wipeKey_err (s : State) : (wipeKey s).err = s.err := rfl
@[simp] theorem wipeKey_fault (s : State) : (wipeKey s).fault = s.fault := rfl
@[simp] theorem wipeKey_acc (s : State) : (wipeKey s).acc = s.acc := rfl
@[simp] theorem wipeKey_nbits (s : State) : (wipeKey s).nbits = s.nbits := rfl
@[simp] theorem wipeKey_gpos (s : State) : (wipeKey s).gpos = s.gpos := rfl
@[simp] theorem wipeKey_nsym (s : State) : (wipeKey s).nsym = s.nsym := rfl
@[simp] theorem wipeKey_nbytes (s : State) : (wipeKey s).nbytes = s.nbytes := rfl
@[simp] theorem wipeKey_inputs (s : State) : (wipeKey s).inputs = s.inputs := rfl
@[simp] theorem wipeKey_events (s : State) : (wipeKey s).events = s.events := rfl

/-! ### acceptSymbol -/

@[simp] theorem acceptSymbol_phase (v : SymVal) (s : State) : (acceptSymbol v s).phase = s.phase := rfl
@[simp] theorem acceptSymbol_mode (v : SymVal) (s : State) : (acceptSymbol v s).mode = s.mode := rfl
@[simp] theorem acceptSymbol_key (v : SymVal) (s : State) : (acceptSymbol v s).key = s.key := rfl
@[simp] theorem acceptSymbol_keyValid (v : SymVal) (s : State) : (acceptSymbol v s).keyValid = s.keyValid := rfl
@[simp] theorem acceptSymbol_msg (v : SymVal) (s : State) : (acceptSymbol v s).msg = s.msg := rfl
@[simp] theorem acceptSymbol_codeD (v : SymVal) (s : State) : (acceptSymbol v s).codeD = s.codeD := rfl
@[simp] theorem acceptSymbol_codeBin (v : SymVal) (s : State) : (acceptSymbol v s).codeBin = s.codeBin := rfl
@[simp] theorem acceptSymbol_codeValid (v : SymVal) (s : State) : (acceptSymbol v s).codeValid = s.codeValid := rfl
@[simp] theorem acceptSymbol_err (v : SymVal) (s : State) : (acceptSymbol v s).err = s.err := rfl
@[simp] theorem acceptSymbol_fault (v : SymVal) (s : State) : (acceptSymbol v s).fault = s.fault := rfl
@[simp] theorem acceptSymbol_acc (v : SymVal) (s : State) : (acceptSymbol v s).acc = accAfter s.acc s.nbits v := rfl
@[simp] theorem acceptSymbol_nbits (v : SymVal) (s : State) : (acceptSymbol v s).nbits = nbitsAfter s.nbits := rfl
@[simp] theorem acceptSymbol_gpos (v : SymVal) (s : State) : (acceptSymbol v s).gpos = s.gpos + 1 := rfl
@[simp] theorem acceptSymbol_nsym (v : SymVal) (s : State) : (acceptSymbol v s).nsym = s.nsym := rfl
@[simp] theorem acceptSymbol_nbytes (v : SymVal) (s : State) : (acceptSymbol v s).nbytes = s.nbytes := rfl
@[simp] theorem acceptSymbol_inputs (v : SymVal) (s : State) : (acceptSymbol v s).inputs = s.inputs := rfl
@[simp] theorem acceptSymbol_events (v : SymVal) (s : State) : (acceptSymbol v s).events = s.events := rfl

/-! ### writeKeyByte -/

@[simp] theorem writeKeyByte_phase (b : Byte) (s : State) : (writeKeyByte b s).phase = s.phase := rfl
@[simp] theorem writeKeyByte_mode (b : Byte) (s : State) : (writeKeyByte b s).mode = s.mode := rfl
@[simp] theorem writeKeyByte_key (b : Byte) (s : State) : (writeKeyByte b s).key = s.key.setIfInBounds s.nbytes.toNat b := rfl
@[simp] theorem writeKeyByte_keyValid (b : Byte) (s : State) : (writeKeyByte b s).keyValid = s.keyValid := rfl
@[simp] theorem writeKeyByte_msg (b : Byte) (s : State) : (writeKeyByte b s).msg = s.msg := rfl
@[simp] theorem writeKeyByte_codeD (b : Byte) (s : State) : (writeKeyByte b s).codeD = s.codeD := rfl
@[simp] theorem writeKeyByte_codeBin (b : Byte) (s : State) : (writeKeyByte b s).codeBin = s.codeBin := rfl
@[simp] theorem writeKeyByte_codeValid (b : Byte) (s : State) : (writeKeyByte b s).codeValid = s.codeValid := rfl
@[simp] theorem writeKeyByte_err (b : Byte) (s : State) : (writeKeyByte b s).err = s.err := rfl
@[simp] theorem writeKeyByte_fault (b : Byte) (s : State) : (writeKeyByte b s).fault = s.fault := rfl
@[simp] theorem writeKeyByte_acc (b : Byte) (s : State) : (writeKeyByte b s).acc = s.acc := rfl
@[simp] theorem writeKeyByte_nbits (b : Byte) (s : State) : (writeKeyByte b s).nbits = s.nbits := rfl
@[simp] theorem writeKeyByte_gpos (b : Byte) (s : State) : (writeKeyByte b s).gpos = s.gpos := rfl
@[simp] theorem writeKeyByte_nsym (b : Byte) (s : State) : (writeKeyByte b s).nsym = s.nsym := rfl
@[simp] theorem writeKeyByte_nbytes (b : Byte) (s : State) : (writeKeyByte b s).nbytes = s.nbytes + 1 := rfl
@[simp] theorem writeKeyByte_inputs (b : Byte) (s : State) : (writeKeyByte b s).inputs = s.inputs := rfl
@[simp] theorem writeKeyByte_events (b : Byte) (s : State) : (writeKeyByte b s).events = s.events := rfl

/-! ### closeDecode -/

@[simp] theorem closeDecode_phase (s : State) : (closeDecode s).phase = .idle := rfl
@[simp] theorem closeDecode_mode (s : State) : (closeDecode s).mode = s.mode := rfl
@[simp] theorem closeDecode_key (s : State) : (closeDecode s).key = s.key := rfl
@[simp] theorem closeDecode_keyValid (s : State) : (closeDecode s).keyValid = s.keyValid := rfl
@[simp] theorem closeDecode_msg (s : State) : (closeDecode s).msg = s.msg := rfl
@[simp] theorem closeDecode_codeD (s : State) : (closeDecode s).codeD = s.codeD := rfl
@[simp] theorem closeDecode_codeBin (s : State) : (closeDecode s).codeBin = s.codeBin := rfl
@[simp] theorem closeDecode_codeValid (s : State) : (closeDecode s).codeValid = s.codeValid := rfl
@[simp] theorem closeDecode_err (s : State) : (closeDecode s).err = s.err := rfl
@[simp] theorem closeDecode_fault (s : State) : (closeDecode s).fault = s.fault := rfl
@[simp] theorem closeDecode_acc (s : State) : (closeDecode s).acc = s.acc := rfl
@[simp] theorem closeDecode_nbits (s : State) : (closeDecode s).nbits = s.nbits := rfl
@[simp] theorem closeDecode_gpos (s : State) : (closeDecode s).gpos = s.gpos := rfl
@[simp] theorem closeDecode_nsym (s : State) : (closeDecode s).nsym = s.nsym := rfl
@[simp] theorem closeDecode_nbytes (s : State) : (closeDecode s).nbytes = s.nbytes := rfl
@[simp] theorem closeDecode_inputs (s : State) : (closeDecode s).inputs = s.inputs := rfl
@[simp] theorem closeDecode_events (s : State) : (closeDecode s).events = s.events ++ [.decDone s.err] := rfl

/-! ### requestHmac -/

@[simp] theorem requestHmac_phase (c : Counter) (s : State) : (requestHmac c s).phase = .waitHmac := rfl
@[simp] theorem requestHmac_mode (c : Counter) (s : State) : (requestHmac c s).mode = s.mode := rfl
@[simp] theorem requestHmac_key (c : Counter) (s : State) : (requestHmac c s).key = s.key := rfl
@[simp] theorem requestHmac_keyValid (c : Counter) (s : State) : (requestHmac c s).keyValid = s.keyValid := rfl
@[simp] theorem requestHmac_msg (c : Counter) (s : State) : (requestHmac c s).msg = pack64be c := rfl
@[simp] theorem requestHmac_codeD (c : Counter) (s : State) : (requestHmac c s).codeD = s.codeD := rfl
@[simp] theorem requestHmac_codeBin (c : Counter) (s : State) : (requestHmac c s).codeBin = s.codeBin := rfl
@[simp] theorem requestHmac_codeValid (c : Counter) (s : State) : (requestHmac c s).codeValid = false := rfl
@[simp] theorem requestHmac_err (c : Counter) (s : State) : (requestHmac c s).err = 0 := rfl
@[simp] theorem requestHmac_fault (c : Counter) (s : State) : (requestHmac c s).fault = s.fault := rfl
@[simp] theorem requestHmac_acc (c : Counter) (s : State) : (requestHmac c s).acc = s.acc := rfl
@[simp] theorem requestHmac_nbits (c : Counter) (s : State) : (requestHmac c s).nbits = s.nbits := rfl
@[simp] theorem requestHmac_gpos (c : Counter) (s : State) : (requestHmac c s).gpos = s.gpos := rfl
@[simp] theorem requestHmac_nsym (c : Counter) (s : State) : (requestHmac c s).nsym = s.nsym := rfl
@[simp] theorem requestHmac_nbytes (c : Counter) (s : State) : (requestHmac c s).nbytes = s.nbytes := rfl
@[simp] theorem requestHmac_inputs (c : Counter) (s : State) : (requestHmac c s).inputs = s.inputs := rfl
@[simp] theorem requestHmac_events (c : Counter) (s : State) : (requestHmac c s).events = s.events ++ [.hmacReq s.key (pack64be c)] := rfl

/-! ### storeCode -/

@[simp] theorem storeCode_phase (d : Digest) (s : State) : (storeCode d s).phase = .idle := rfl
@[simp] theorem storeCode_mode (d : Digest) (s : State) : (storeCode d s).mode = s.mode := rfl
@[simp] theorem storeCode_key (d : Digest) (s : State) : (storeCode d s).key = s.key := rfl
@[simp] theorem storeCode_keyValid (d : Digest) (s : State) : (storeCode d s).keyValid = s.keyValid := rfl
@[simp] theorem storeCode_msg (d : Digest) (s : State) : (storeCode d s).msg = s.msg := rfl
@[simp] theorem storeCode_codeD (d : Digest) (s : State) : (storeCode d s).codeD = digits (numericCode (truncate d)) := rfl
@[simp] theorem storeCode_codeBin (d : Digest) (s : State) : (storeCode d s).codeBin = numericCode (truncate d) := rfl
@[simp] theorem storeCode_codeValid (d : Digest) (s : State) : (storeCode d s).codeValid = true := rfl
@[simp] theorem storeCode_err (d : Digest) (s : State) : (storeCode d s).err = s.err := rfl
@[simp] theorem storeCode_fault (d : Digest) (s : State) : (storeCode d s).fault = s.fault := rfl
@[simp] theorem storeCode_acc (d : Digest) (s : State) : (storeCode d s).acc = s.acc := rfl
@[simp] theorem storeCode_nbits (d : Digest) (s : State) : (storeCode d s).nbits = s.nbits := rfl
@[simp] theorem storeCode_gpos (d : Digest) (s : State) : (storeCode d s).gpos = s.gpos := rfl
@[simp] theorem storeCode_nsym (d : Digest) (s : State) : (storeCode d s).nsym = s.nsym := rfl
@[simp] theorem storeCode_nbytes (d : Digest) (s : State) : (storeCode d s).nbytes = s.nbytes := rfl
@[simp] theorem storeCode_inputs (d : Digest) (s : State) : (storeCode d s).inputs = s.inputs := rfl
@[simp] theorem storeCode_events (d : Digest) (s : State) : (storeCode d s).events = s.events ++ [.codeDone 0] := rfl

/-! ### takeInput -/

@[simp] theorem takeInput_phase (s : State) : (takeInput s).phase = s.phase := rfl
@[simp] theorem takeInput_mode (s : State) : (takeInput s).mode = s.mode := rfl
@[simp] theorem takeInput_key (s : State) : (takeInput s).key = s.key := rfl
@[simp] theorem takeInput_keyValid (s : State) : (takeInput s).keyValid = s.keyValid := rfl
@[simp] theorem takeInput_msg (s : State) : (takeInput s).msg = s.msg := rfl
@[simp] theorem takeInput_codeD (s : State) : (takeInput s).codeD = s.codeD := rfl
@[simp] theorem takeInput_codeBin (s : State) : (takeInput s).codeBin = s.codeBin := rfl
@[simp] theorem takeInput_codeValid (s : State) : (takeInput s).codeValid = s.codeValid := rfl
@[simp] theorem takeInput_err (s : State) : (takeInput s).err = s.err := rfl
@[simp] theorem takeInput_fault (s : State) : (takeInput s).fault = s.fault := rfl
@[simp] theorem takeInput_acc (s : State) : (takeInput s).acc = s.acc := rfl
@[simp] theorem takeInput_nbits (s : State) : (takeInput s).nbits = s.nbits := rfl
@[simp] theorem takeInput_gpos (s : State) : (takeInput s).gpos = s.gpos := rfl
@[simp] theorem takeInput_nsym (s : State) : (takeInput s).nsym = s.nsym := rfl
@[simp] theorem takeInput_nbytes (s : State) : (takeInput s).nbytes = s.nbytes := rfl
@[simp] theorem takeInput_inputs (s : State) : (takeInput s).inputs = inputsLeft s.inputs := rfl
@[simp] theorem takeInput_events (s : State) : (takeInput s).events = s.events := rfl

/-! ### applyReset -/

@[simp] theorem applyReset_phase (s : State) : (applyReset s).phase = State.reset.phase := rfl
@[simp] theorem applyReset_mode (s : State) : (applyReset s).mode = State.reset.mode := rfl
@[simp] theorem applyReset_key (s : State) : (applyReset s).key = State.reset.key := rfl
@[simp] theorem applyReset_keyValid (s : State) : (applyReset s).keyValid = State.reset.keyValid := rfl
@[simp] theorem applyReset_msg (s : State) : (applyReset s).msg = State.reset.msg := rfl
@[simp] theorem applyReset_codeD (s : State) : (applyReset s).codeD = State.reset.codeD := rfl
@[simp] theorem applyReset_codeBin (s : State) : (applyReset s).codeBin = State.reset.codeBin := rfl
@[simp] theorem applyReset_codeValid (s : State) : (applyReset s).codeValid = State.reset.codeValid := rfl
@[simp] theorem applyReset_err (s : State) : (applyReset s).err = State.reset.err := rfl
@[simp] theorem applyReset_fault (s : State) : (applyReset s).fault = State.reset.fault := rfl
@[simp] theorem applyReset_acc (s : State) : (applyReset s).acc = State.reset.acc := rfl
@[simp] theorem applyReset_nbits (s : State) : (applyReset s).nbits = State.reset.nbits := rfl
@[simp] theorem applyReset_gpos (s : State) : (applyReset s).gpos = State.reset.gpos := rfl
@[simp] theorem applyReset_nsym (s : State) : (applyReset s).nsym = State.reset.nsym := rfl
@[simp] theorem applyReset_nbytes (s : State) : (applyReset s).nbytes = State.reset.nbytes := rfl
@[simp] theorem applyReset_inputs (s : State) : (applyReset s).inputs = s.inputs := rfl
@[simp] theorem applyReset_events (s : State) : (applyReset s).events = s.events := rfl

end Sys2Proof.Machine
end

