-- ==== Sys2Proof/Laws/Ops.lean ====
section
/-! SUPPORT. One lemma per shared operation that says everything it can do; proofs about the machine cite these and do not unfold. -/

namespace Sys2Proof.Machine

/-! ## A phase accepts or drops -/

@[simp] theorem runIfAccepted_true (run : State → State) (s : State) : runIfAccepted true run s = .next (run s) := rfl

@[simp] theorem runIfAccepted_false (run : State → State) (s : State) :
    runIfAccepted false run s = .next (dropWithFault s) := rfl

/-- Everything a guarded transaction can do. -/
theorem runIfAccepted_cases {a : Bool} {run : State → State} {s t : State} (h : runIfAccepted a run s = .next t) :
    (a = true ∧ t = run s) ∨ (a = false ∧ t = dropWithFault s) := by
  cases a <;> simp_all

/-! ## The shift-in -/

theorem shiftedCount_eq (nbits : BitVec 3) : shiftedCount nbits = nbits.toNat + 5 := rfl

theorem completedByte_none {acc : BitVec 7} {nbits : BitVec 3} {v : SymVal} (h : nbits.toNat < 3) :
    completedByte acc nbits v = none := by
  unfold completedByte
  exact if_neg (by rw [shiftedCount_eq]; omega)

theorem completedByte_some {acc : BitVec 7} {nbits : BitVec 3} {v : SymVal} (h : 3 ≤ nbits.toNat) :
    completedByte acc nbits v = some ((shiftedBits acc v).extractLsb' (nbits.toNat - 3) 8) := by
  unfold completedByte
  exact if_pos (by rw [shiftedCount_eq]; omega)

theorem nbitsAfter_toNat (nbits : BitVec 3) : (nbitsAfter nbits).toNat = (nbits.toNat + 5) % 8 := by
  revert nbits; decide

/-- The window `t` as a number. -/
theorem shiftedBits_toNat (acc : BitVec 7) (v : SymVal) : (shiftedBits acc v).toNat = acc.toNat * 32 + v.toNat := by
  have hb : ((acc.setWidth 12 <<< 5 : BitVec 12)).toNat = 2 ^ 5 * acc.toNat := by
    simp [BitVec.toNat_shiftLeft, Nat.shiftLeft_eq]; omega
  unfold shiftedBits
  rw [BitVec.toNat_or, hb, BitVec.toNat_setWidth, Nat.mod_eq_of_lt (by omega),
    ← Nat.two_pow_add_eq_or_of_lt (by omega)]
  omega

/-! ## A character in a transaction -/

/-- Everything the push of a character can do. -/
theorem pushClass_cases {c : CharClass} {s t : State} (h : pushClass c s = .next t) :
    (s.phase ≠ .decoding ∧ t = dropWithFault s) ∨
    (s.phase = .decoding ∧ s.err ≠ 0 ∧ t = s) ∨
    (s.phase = .decoding ∧ s.err = 0 ∧ s.mode = .secret ∧ t = pushSecret c s) ∨
    (s.phase = .decoding ∧ s.err = 0 ∧ s.mode = .generic ∧ t = pushGeneric c s) := by
  rcases runIfAccepted_cases h with ⟨ha, ht⟩ | ⟨ha, ht⟩
  · have hp : s.phase = .decoding := by simpa using ha
    by_cases he : s.err = 0
    · cases hm : s.mode <;> simp_all [pushOpen]
    · simp_all [pushOpen]
  · exact .inl ⟨by simpa using ha, ht⟩

/-- Everything a character can do in an open secret transaction without error. -/
theorem pushSecret_cases (c : CharClass) (s : State) :
    pushSecret c s = raise .invalidSecret s ∨
    ∃ v, c = .sym v ∧ s.nsym ≠ 16 ∧
      ((completedByte s.acc s.nbits v = none ∧ pushSecret c s = { acceptSymbol v s with nsym := s.nsym + 1 }) ∨
       ∃ b, completedByte s.acc s.nbits v = some b ∧
        pushSecret c s = writeKeyByte b { acceptSymbol v s with nsym := s.nsym + 1 }) := by
  cases c with
  | pad => exact .inl rfl
  | invalid => exact .inl rfl
  | sym v =>
    by_cases hn : s.nsym = 16
    · exact .inl (by simp [pushSecret, hn])
    · refine .inr ⟨v, rfl, hn, ?_⟩
      cases hb : completedByte s.acc s.nbits v <;> simp only [pushSecret, takeSecretSymbol, if_neg hn, hb] <;> simp

/-- Everything a character can do in an open generic transaction without error. -/
theorem pushGeneric_cases (c : CharClass) (s : State) :
    (c = .pad ∧ pushGeneric c s = s) ∨
    (c = .invalid ∧ pushGeneric c s = raise .invalidCharacter s) ∨
    ∃ v, c = .sym v ∧
      ((completedByte s.acc s.nbits v = none ∧ pushGeneric c s = acceptSymbol v s) ∨
       ∃ b, completedByte s.acc s.nbits v = some b ∧ pushGeneric c s = emit (.decByte b) (acceptSymbol v s)) := by
  cases c with
  | pad => exact .inl ⟨rfl, rfl⟩
  | invalid => exact .inr (.inl ⟨rfl, rfl⟩)
  | sym v =>
    refine .inr (.inr ⟨v, rfl, ?_⟩)
    cases hb : completedByte s.acc s.nbits v <;> simp [pushGeneric, hb]

/-! ## The ends of a transaction -/

/-- Everything `B32_END` can do where it is accepted. -/
theorem endDecode_cases (s : State) :
    (s.mode = .generic ∧ s.err = 0 ∧ badTrailingGroup s.gpos = true ∧
      endDecode s = closeDecode (raise .invalidPadding s)) ∨
    (s.mode = .generic ∧ ¬(s.err = 0 ∧ badTrailingGroup s.gpos = true) ∧ endDecode s = closeDecode s) ∨
    (s.mode = .secret ∧ s.err = 0 ∧ s.nsym = 16 ∧ endDecode s = closeDecode { s with keyValid := true }) ∨
    (s.mode = .secret ∧ s.err = 0 ∧ s.nsym ≠ 16 ∧ endDecode s = closeDecode (raise .invalidSecret s)) ∨
    (s.mode = .secret ∧ s.err ≠ 0 ∧ endDecode s = closeDecode s) := by
  cases hm : s.mode with
  | generic =>
    by_cases hb : s.err = 0 ∧ badTrailingGroup s.gpos = true
    · exact .inl ⟨rfl, hb.1, hb.2, by simp [endDecode, hm, endGeneric, hb]⟩
    · exact .inr (.inl ⟨rfl, hb, by simp only [endDecode, hm, endGeneric]; rw [if_neg hb]⟩)
  | secret =>
    by_cases he : s.err = 0
    · by_cases hn : s.nsym = 16
      · exact .inr (.inr (.inl ⟨rfl, he, hn, by simp only [endDecode, hm, endSecret, if_pos he, if_pos hn]⟩))
      · exact .inr (.inr (.inr (.inl ⟨rfl, he, hn, by simp only [endDecode, hm, endSecret, if_pos he, if_neg hn]⟩)))
    · exact .inr (.inr (.inr (.inr ⟨rfl, he, by simp only [endDecode, hm, endSecret, if_neg he]⟩)))

/-! ## A code call -/

/-- Everything an accepted `HOTP` can do. -/
theorem startCall_cases (c : Counter) (s : State) :
    (s.keyValid = true ∧ startCall c s = requestHmac c s) ∨
    (s.keyValid = false ∧
      startCall c s = emit (.codeDone 4) (raise .keyDecodeFailure { s with codeValid := false })) := by
  cases hk : s.keyValid <;> simp [startCall, hk, errorCode]

/-- Everything an accepted response can do. -/
theorem takeResponse_cases (len : Byte) (d : Digest) (s : State) :
    (len = 20 ∧ takeResponse len d s = storeCode d s) ∨
    (len ≠ 20 ∧ takeResponse len d s = emit (.codeDone 6) (raise .contractViolation { s with phase := .idle })) := by
  have hl : len.toNat = Config.digestLen ↔ len = 20 :=
    ⟨fun h => BitVec.eq_of_toNat_eq (by simpa using h), fun h => by subst h; rfl⟩
  by_cases h : len = 20
  · exact .inl ⟨h, by simp only [takeResponse]; rw [if_pos (hl.2 h)]⟩
  · exact .inr ⟨h, by simp only [takeResponse]; rw [if_neg (fun hh => h (hl.1 hh))]; rfl⟩

end Sys2Proof.Machine
end

