-- ==== Sys2Proof/Laws/Exec.lean ====
section
/-! SUPPORT. Everything one transaction can do, said once: proofs over all instructions cite `exec_cases` and take its cases apart with the
lemmas of Laws/Ops.lean. -/

namespace Sys2Proof.Machine

open Sys2Proof.Safety

/-- A transaction that pushes a character of class `c` is the push of that class. -/
theorem exec_of_pushedClass {i : Instr} {c : CharClass} (h : pushedClass i = some c) (s : State) :
    exec i s = pushClass c s := by
  cases i <;> simp [pushedClass] at h <;> subst h <;> rfl

/-- Every transaction is a push, one of the four other commands, a reserved code or a response. -/
theorem instr_kinds (i : Instr) :
    (∃ c, pushedClass i = some c) ∨ i = .nop ∨ (∃ m, i = .b32Start m) ∨ i = .b32End ∨ (∃ c, i = .hotp c) ∨
    (i = .reserved5 ∨ i = .reserved6 ∨ i = .reserved7) ∨ ∃ len d, i = .hmacResp len d := by
  cases i <;> simp [pushedClass]

/-- Pushes are accepted in `DECODING`. -/
theorem accepts_of_pushedClass {i : Instr} {c : CharClass} (h : pushedClass i = some c) (p : Phase) :
    accepts p i = (p == .decoding) := by
  cases i <;> simp [pushedClass] at h <;> rfl

/-- Everything one transaction can do. -/
theorem exec_cases {i : Instr} {s t : State} (h : exec i s = .next t) :
    (accepts s.phase i = false ∧ t = dropWithFault s) ∨
    (accepts s.phase i = true ∧
      ((i = .nop ∧ t = s) ∨
       (∃ c, pushedClass i = some c ∧ s.phase = .decoding ∧
          ((s.err ≠ 0 ∧ t = s) ∨ (s.err = 0 ∧ s.mode = .secret ∧ t = pushSecret c s) ∨
           (s.err = 0 ∧ s.mode = .generic ∧ t = pushGeneric c s))) ∨
       (∃ m, i = .b32Start m ∧ s.phase ≠ .waitHmac ∧ t = startDecode m s) ∨
       (i = .b32End ∧ s.phase = .decoding ∧ t = endDecode s) ∨
       (∃ c, i = .hotp c ∧ s.phase = .idle ∧ t = startCall c s) ∨
       ∃ len d, i = .hmacResp len d ∧ s.phase = .waitHmac ∧ t = takeResponse len d s)) := by
  rcases instr_kinds i with ⟨c, hc⟩ | rfl | ⟨m, rfl⟩ | rfl | ⟨c, rfl⟩ | hr | ⟨len, d, rfl⟩
  · rw [exec_of_pushedClass hc] at h
    rw [accepts_of_pushedClass hc]
    rcases pushClass_cases h with ⟨hp, rfl⟩ | ⟨hp, he, rfl⟩ | ⟨hp, he, hm, rfl⟩ | ⟨hp, he, hm, rfl⟩
    · exact .inl ⟨by simpa using hp, rfl⟩
    · exact .inr ⟨by simp [hp], .inr (.inl ⟨c, hc, hp, .inl ⟨he, rfl⟩⟩)⟩
    · exact .inr ⟨by simp [hp], .inr (.inl ⟨c, hc, hp, .inr (.inl ⟨he, hm, rfl⟩)⟩)⟩
    · exact .inr ⟨by simp [hp], .inr (.inl ⟨c, hc, hp, .inr (.inr ⟨he, hm, rfl⟩)⟩)⟩
  · cases h
    exact .inr ⟨rfl, .inl ⟨rfl, rfl⟩⟩
  · rcases runIfAccepted_cases h with ⟨ha, rfl⟩ | ⟨ha, rfl⟩ <;> cases hp : s.phase <;> simp_all [accepts]
  · rcases runIfAccepted_cases h with ⟨ha, rfl⟩ | ⟨ha, rfl⟩ <;> cases hp : s.phase <;> simp_all [accepts]
  · rcases runIfAccepted_cases h with ⟨ha, rfl⟩ | ⟨ha, rfl⟩ <;> cases hp : s.phase <;> simp_all [accepts]
  · rcases hr with rfl | rfl | rfl <;> cases h <;> exact .inl ⟨rfl, rfl⟩
  · rcases runIfAccepted_cases h with ⟨ha, rfl⟩ | ⟨ha, rfl⟩ <;> cases hp : s.phase <;> simp_all [accepts]

/-- Without `rst` and apart from the ports, a step is a transaction or nothing. -/
theorem step_cases {s t : State} (h : step s = .next t) :
    t = takeInput s ∨ t = applyReset (takeInput s) ∨ ∃ i, exec i (takeInput s) = .next t := by
  rw [step] at h
  cases hp : nextTransaction s.inputs <;> rw [hp] at h
  · cases h; exact .inl rfl
  · cases h; exact .inr (.inl rfl)
  · exact .inr (.inr ⟨decodeResp _, h⟩)
  · exact .inr (.inr ⟨decodeCmd _, h⟩)

end Sys2Proof.Machine
end

