-- ==== Sys2Proof/Laws/Fetch.lean ====
section
/-! SUPPORT. What is taken from the input ports, slot by slot. -/

namespace Sys2Proof.Machine

@[simp] theorem nextTransaction_nil : nextTransaction [] = .nothing := rfl

@[simp] theorem nextTransaction_cons (p : PortSlot) (rest : List PortSlot) :
    nextTransaction (p :: rest) = slotTransaction p := rfl

@[simp] theorem inputsLeft_nil : inputsLeft [] = [] := rfl

@[simp] theorem inputsLeft_cons (p : PortSlot) (rest : List PortSlot) :
    inputsLeft (p :: rest) = slotLeft p ++ rest := rfl

@[simp] theorem slotTransaction_commandSlot (op : BitVec 3) (arg : BitVec 64) :
    slotTransaction (commandSlot op arg) = .command (cmdWord op arg) := rfl

@[simp] theorem slotTransaction_responseSlot (len : Byte) (d : Digest) :
    slotTransaction (responseSlot len d) = .response (respWord len d) := rfl

@[simp] theorem slotLeft_commandSlot (op : BitVec 3) (arg : BitVec 64) : slotLeft (commandSlot op arg) = [] := rfl

@[simp] theorem slotLeft_responseSlot (len : Byte) (d : Digest) : slotLeft (responseSlot len d) = [] := rfl

@[simp] theorem slotTransaction_resetSlot : slotTransaction resetSlot = .reset := rfl

@[simp] theorem slotLeft_resetSlot : slotLeft resetSlot = [] := rfl

@[simp] theorem slotTransaction_quietSlot : slotTransaction quietSlot = .nothing := rfl

/-- One step, from what the ports carry. -/
theorem step_eq (s : State) : step s = runPresented (nextTransaction s.inputs) (takeInput s) := rfl

@[simp] theorem runPresented_nothing (s : State) : runPresented .nothing s = .next s := rfl

@[simp] theorem runPresented_reset (s : State) : runPresented .reset s = .next (applyReset s) := rfl

@[simp] theorem runPresented_response (w : RespWord) (s : State) :
    runPresented (.response w) s = exec (decodeResp w) s := rfl

@[simp] theorem runPresented_command (w : CmdWord) (s : State) :
    runPresented (.command w) s = exec (decodeCmd w) s := rfl

end Sys2Proof.Machine
end

