-- ==== Sys2Proof/Laws/PerInstr.lean ====
section
/-! SUPPORT. Per-instruction laws: the family TableRow says that the word an instruction is encoded to matches the instruction's own row of
spec/opcode_table.json. -/

namespace Sys2Proof.Laws.TableRow

/-- The encoded word of a well-formed instruction matches the mask and match of its row. -/
def Statement (i : Instr) : Prop := i.wf = true → i.tableRow.matchesWord (encode i) = true

/-- A mask on the code field keeps the masked code alone. -/
theorem cmdWord_and_mask (code mask : BitVec 3) (arg : BitVec 64) :
    cmdWord code arg &&& cmdWord mask 0 = cmdWord (code &&& mask) 0 := by
  apply BitVec.eq_of_getLsbD_eq
  intro i hi
  by_cases h : i < 64
  · simp [cmdWord, h]
  · have ha : arg.getLsbD i = false := BitVec.getLsbD_of_ge arg i (by omega)
    simp [cmdWord, h, ha, hi]

/-- Any command word matches the row of its own code. -/
theorem cmdRow_matches (code : BitVec 3) (arg : BitVec 64) :
    (cmdRow code).matchesWord (.cmd (cmdWord code arg)) = true := by
  have hm : code &&& 7 = code := by revert code; decide
  simp only [TableRow.matchesWord, cmdRow, cmdWord_and_mask, hm, beq_self_eq_true]

theorem nop : Statement .nop := fun _ => cmdRow_matches _ _
theorem b32Start (m : Mode) : Statement (.b32Start m) := fun _ => cmdRow_matches _ _
theorem b32Push (ch : Byte) : Statement (.b32Push ch) := fun _ => cmdRow_matches _ _
theorem b32End : Statement .b32End := fun _ => cmdRow_matches _ _
theorem hotp (c : Counter) : Statement (.hotp c) := fun _ => cmdRow_matches _ _
theorem reserved5 : Statement .reserved5 := fun _ => cmdRow_matches _ _
theorem reserved6 : Statement .reserved6 := fun _ => cmdRow_matches _ _
theorem reserved7 : Statement .reserved7 := fun _ => cmdRow_matches _ _
theorem hmacResp (len : Byte) (d : Digest) : Statement (.hmacResp len d) := fun _ => by
  simp [Instr.tableRow, encode, TableRow.matchesWord]
theorem symA (l : Bool) : Statement (.symA l) := fun _ => by cases l <;> decide
theorem symB (l : Bool) : Statement (.symB l) := fun _ => by cases l <;> decide
theorem symC (l : Bool) : Statement (.symC l) := fun _ => by cases l <;> decide
theorem symD (l : Bool) : Statement (.symD l) := fun _ => by cases l <;> decide
theorem symE (l : Bool) : Statement (.symE l) := fun _ => by cases l <;> decide
theorem symF (l : Bool) : Statement (.symF l) := fun _ => by cases l <;> decide
theorem symG (l : Bool) : Statement (.symG l) := fun _ => by cases l <;> decide
theorem symH (l : Bool) : Statement (.symH l) := fun _ => by cases l <;> decide
theorem symI (l : Bool) : Statement (.symI l) := fun _ => by cases l <;> decide
theorem symJ (l : Bool) : Statement (.symJ l) := fun _ => by cases l <;> decide
theorem symK (l : Bool) : Statement (.symK l) := fun _ => by cases l <;> decide
theorem symL (l : Bool) : Statement (.symL l) := fun _ => by cases l <;> decide
theorem symM (l : Bool) : Statement (.symM l) := fun _ => by cases l <;> decide
theorem symN (l : Bool) : Statement (.symN l) := fun _ => by cases l <;> decide
theorem symO (l : Bool) : Statement (.symO l) := fun _ => by cases l <;> decide
theorem symP (l : Bool) : Statement (.symP l) := fun _ => by cases l <;> decide
theorem symQ (l : Bool) : Statement (.symQ l) := fun _ => by cases l <;> decide
theorem symR (l : Bool) : Statement (.symR l) := fun _ => by cases l <;> decide
theorem symS (l : Bool) : Statement (.symS l) := fun _ => by cases l <;> decide
theorem symT (l : Bool) : Statement (.symT l) := fun _ => by cases l <;> decide
theorem symU (l : Bool) : Statement (.symU l) := fun _ => by cases l <;> decide
theorem symV (l : Bool) : Statement (.symV l) := fun _ => by cases l <;> decide
theorem symW (l : Bool) : Statement (.symW l) := fun _ => by cases l <;> decide
theorem symX (l : Bool) : Statement (.symX l) := fun _ => by cases l <;> decide
theorem symY (l : Bool) : Statement (.symY l) := fun _ => by cases l <;> decide
theorem symZ (l : Bool) : Statement (.symZ l) := fun _ => by cases l <;> decide
theorem sym2 : Statement .sym2 := fun _ => by decide
theorem sym3 : Statement .sym3 := fun _ => by decide
theorem sym4 : Statement .sym4 := fun _ => by decide
theorem sym5 : Statement .sym5 := fun _ => by decide
theorem sym6 : Statement .sym6 := fun _ => by decide
theorem sym7 : Statement .sym7 := fun _ => by decide
theorem pad : Statement .pad := fun _ => by decide
theorem invalid (ch : Byte) : Statement (.invalid ch) := fun _ => by
  simp [Instr.tableRow, encode, TableRow.matchesWord]

end Sys2Proof.Laws.TableRow
end

