-- ==== Sys2Proof/Laws/Words.lean ====
section
/-! SUPPORT. The fields of a word that was put together are the parts it was put together from. -/

namespace Sys2Proof

@[simp] theorem cmdOpField_cmdWord (op : BitVec 3) (arg : BitVec 64) : cmdOpField (cmdWord op arg) = op := by
  apply BitVec.eq_of_getLsbD_eq
  intro i hi
  have h : 64 + i < 67 := by omega
  simp [cmdOpField, cmdWord, hi, h]

@[simp] theorem cmdArgField_cmdWord (op : BitVec 3) (arg : BitVec 64) : cmdArgField (cmdWord op arg) = arg := by
  apply BitVec.eq_of_getLsbD_eq
  intro i hi
  have h : i < 67 := by omega
  simp [cmdArgField, cmdWord, hi, h]

@[simp] theorem respLenField_respWord (len : Byte) (d : Digest) : respLenField (respWord len d) = len := by
  apply BitVec.eq_of_getLsbD_eq
  intro i hi
  have h : 160 + i < 168 := by omega
  simp [respLenField, respWord, hi, h]

@[simp] theorem respDigestField_respWord (len : Byte) (d : Digest) : respDigestField (respWord len d) = d := by
  apply BitVec.eq_of_getLsbD_eq
  intro i hi
  have h : i < 168 := by omega
  simp [respDigestField, respWord, hi, h]

/-- A character put into an operand is read back (30_encoding.md R61). -/
@[simp] theorem charOperand_setWidth (ch : Byte) : charOperand (ch.setWidth 64) = ch := by
  apply BitVec.eq_of_getLsbD_eq
  intro i hi
  simp [charOperand, hi]
  omega

/-- A command word is its two fields. -/
theorem cmdWord_fields (w : CmdWord) : cmdWord (cmdOpField w) (cmdArgField w) = w := by
  apply BitVec.eq_of_getLsbD_eq
  intro i hi
  by_cases h : i < 64
  · simp [cmdOpField, cmdArgField, cmdWord, h, hi]
  · have h1 : i - 64 < 3 := by omega
    have h2 : 64 + (i - 64) = i := by omega
    simp [cmdOpField, cmdArgField, cmdWord, h, h1, h2, hi]

/-- A response word is its two fields. -/
theorem respWord_fields (w : RespWord) : respWord (respLenField w) (respDigestField w) = w := by
  apply BitVec.eq_of_getLsbD_eq
  intro i hi
  by_cases h : i < 160
  · simp [respLenField, respDigestField, respWord, h, hi]
  · have h1 : i - 160 < 8 := by omega
    have h2 : 160 + (i - 160) = i := by omega
    simp [respLenField, respDigestField, respWord, h, h1, h2, hi]

end Sys2Proof
end

