-- ==== Sys2Proof/Machine/Notation.lean ====
section
/-! DEFINITION. The spec's printed form of a word and its one-line syntax of a transaction (30_encoding.md R72), with what R72
leaves open settled by the model (log 16). Nothing in the machine depends on it. -/

namespace Sys2Proof.Machine

/-- A hexadecimal digit, lower case. -/
def hexChar (n : Nat) : Char := "0123456789abcdef".toList.getD (n % 16) '0'

/-- `w` as `n` hexadecimal digits, the most significant first. -/
def hexChars (n w : Nat) : List Char := (List.range n).map fun i => hexChar (w / 16 ^ (n - 1 - i))

/-- A number below 1000 in decimal, without leading zeros. -/
def decimalChars (w : Nat) : List Char :=
  if w < 10 then [hexChar w]
  else if w < 100 then [hexChar (w / 10), hexChar (w % 10)]
  else [hexChar (w / 100 % 10), hexChar (w / 10 % 10), hexChar (w % 10)]

/-- The printed form of a word: `o:aaaaaaaaaaaaaaaa` or `ll:dd...d` (R72). DESIGN CHOICE (log 16): the operand field of a command word is
printed as it stands, ignored bits too, as 95_test_vectors.md V2, V9 and V11 do, where R72 prints them as 0 (`printedInstr` does); and a
character, for which R72 gives no printed form, is printed as its byte. -/
def printedWord : TableWord → List Char
  | .cmd w => hexChars 1 (cmdOpField w).toNat ++ ':' :: hexChars 16 (cmdArgField w).toNat
  | .resp w => hexChars 2 (respLenField w).toNat ++ ':' :: hexChars 40 (respDigestField w).toNat
  | .sym ch => '0' :: 'x' :: hexChars 2 ch.toNat

/-- The printed form of an instruction's own word, in which ignored bits are 0 (R72). -/
def printedInstr (i : Instr) : List Char := printedWord (encode i)

/-- One transaction in the spec's syntax (R72); a character row is the push of its character (log 3). DESIGN CHOICE (log 16): R72 gives no
line for a reserved code, and the model writes it as 95_test_vectors.md program 3 step 46 does, `(reserved 7)`. Where R72 allows two forms
of an operand the model writes the hexadecimal one. -/
def syntaxLine (i : Instr) : List Char :=
  match encode i with
  | .sym ch => "B32_PUSH 0x".toList ++ hexChars 2 ch.toNat
  | .resp w =>
    "HMAC_RESP ".toList ++ decimalChars (respLenField w).toNat ++ ", ".toList ++ hexChars 40 (respDigestField w).toNat
  | .cmd w =>
    match (cmdOpField w).toNat with
    | 0 => "NOP".toList
    | 1 => if (cmdArgField w).getLsbD 0 then "B32_START SECRET".toList else "B32_START GENERIC".toList
    | 2 => "B32_PUSH 0x".toList ++ hexChars 2 (cmdArgField w).toNat
    | 3 => "B32_END".toList
    | 4 => "HOTP 0x".toList ++ hexChars 16 (cmdArgField w).toNat
    | n => "(reserved ".toList ++ decimalChars n ++ [')']

end Sys2Proof.Machine
end

