-- ==== Sys2Proof/Tests/Slice0.lean ====
section
/-! SUPPORT. The model's own tests. Expected values come from the words, tables and examples of spec/ (30_encoding.md, 40 to 45,
95_test_vectors.md), never from the model. Then one witness for each statement of Certificates/Slice0/Obligations.lean that has hypotheses. -/

namespace Sys2Proof.Tests

open Sys2Proof.Machine Sys2Proof.Safety Sys2Proof.Statements

/-! ## States -/

/-- The state an outcome holds. -/
def after : Out → Option State
  | .next s => some s
  | .fault _ => none
  | .refused _ => none

/-- A key is loaded, `IDLE`. -/
def keyed : State := { State.reset with mode := .secret, keyValid := true, key := #v[0x31, 0x32, 0x33, 0x34, 0x35, 0x36, 0x37, 0x38, 0x39, 0x30] }

/-- A request is out. -/
def waiting : State := { keyed with phase := .waitHmac, msg := #v[0, 0, 0, 0, 0, 0, 0, 1] }

/-- An open generic transaction with `acc`, `nbits`, `gpos`. -/
def generic (acc : BitVec 7) (nbits gpos : BitVec 3) : State := { State.reset with phase := .decoding, acc := acc, nbits := nbits, gpos := gpos }

/-- An open secret transaction. -/
def secret (acc : BitVec 7) (nbits gpos : BitVec 3) (nsym : BitVec 5) (nbytes : BitVec 4) : State :=
  { State.reset with phase := .decoding, mode := .secret, acc := acc, nbits := nbits, gpos := gpos, nsym := nsym, nbytes := nbytes }

/-- The digest of RFC 4226 Appendix D, count 0, as 43_dynamic_truncator.md gives it. -/
def digest0 : Digest := 0xcc93cf18508d94934c64b65d8ba7667fb7cde4b0

/-! ## WellFormed: ill-formed terms are refused -/

theorem test_wf_refuses_letter_as_invalid : (Instr.invalid 0x41).wf = false := by decide
theorem test_wf_refuses_lower_letter_as_invalid : (Instr.invalid 0x7A).wf = false := by decide
theorem test_wf_refuses_digit_as_invalid : (Instr.invalid 0x37).wf = false := by decide
theorem test_wf_refuses_pad_as_invalid : (Instr.invalid 0x3D).wf = false := by decide
theorem test_wf_accepts_neighbours : (Instr.invalid 0x31).wf = true ∧ (Instr.invalid 0x38).wf = true ∧ (Instr.invalid 0x40).wf = true ∧
    (Instr.invalid 0x5B).wf = true ∧ (Instr.invalid 0x60).wf = true ∧ (Instr.invalid 0x7B).wf = true ∧ (Instr.invalid 0xFF).wf = true := by decide

/-! ## Decoding: words written out from the spec's encodings -/

theorem test_decode_nop : decodeTableWord 72 0b0000000000000000000000000000000000000000000000000000000000000000000 = some .nop := by decide
theorem test_decode_nop_ignores_operand : decodeTableWord 72 0x0ffffffffffffffff = some .nop := by decide
theorem test_decode_start_generic : decodeTableWord 72 0b0010000000000000000000000000000000000000000000000000000000000000000 = some (.b32Start .generic) := by decide
theorem test_decode_start_secret : decodeTableWord 72 0b0010000000000000000000000000000000000000000000000000000000000000001 = some (.b32Start .secret) := by decide
theorem test_decode_push : decodeTableWord 72 0b0100000000000000000000000000000000000000000000000000000000001000111 = some (.b32Push 0x47) := by decide
theorem test_decode_end : decodeTableWord 72 0b0110000000000000000000000000000000000000000000000000000000000000000 = some .b32End := by decide
theorem test_decode_hotp : decodeTableWord 72 0x4ffffffffffffffff = some (.hotp 0xffffffffffffffff) ∧
    decodeTableWord 72 0x400000000023523ec = some (.hotp 37037036) := by decide
theorem test_decode_reserved5 : decodeTableWord 72 0x50000000000000000 = some .reserved5 := by decide
theorem test_decode_reserved6 : decodeTableWord 72 0x6ffffffffffffffff = some .reserved6 := by decide
theorem test_decode_reserved7 : decodeTableWord 72 0x700000000deadbeef = some .reserved7 := by decide
theorem test_decode_resp : decodeTableWord 168 0x14cc93cf18508d94934c64b65d8ba7667fb7cde4b0 = some (.hmacResp 20 digest0) ∧
    decodeTableWord 168 0xff0000000000000000000000000000000000000001 = some (.hmacResp 255 1) := by decide

theorem test_decode_letters_A_to_I :
    decodeTableWord 8 0b01000001 = some (.symA false) ∧ decodeTableWord 8 0b01100001 = some (.symA true) ∧
    decodeTableWord 8 0b01000010 = some (.symB false) ∧ decodeTableWord 8 0b01100010 = some (.symB true) ∧
    decodeTableWord 8 0b01000011 = some (.symC false) ∧ decodeTableWord 8 0b01100011 = some (.symC true) ∧
    decodeTableWord 8 0b01000100 = some (.symD false) ∧ decodeTableWord 8 0b01100100 = some (.symD true) ∧
    decodeTableWord 8 0b01000101 = some (.symE false) ∧ decodeTableWord 8 0b01100101 = some (.symE true) ∧
    decodeTableWord 8 0b01000110 = some (.symF false) ∧ decodeTableWord 8 0b01100110 = some (.symF true) ∧
    decodeTableWord 8 0b01000111 = some (.symG false) ∧ decodeTableWord 8 0b01100111 = some (.symG true) ∧
    decodeTableWord 8 0b01001000 = some (.symH false) ∧ decodeTableWord 8 0b01101000 = some (.symH true) ∧
    decodeTableWord 8 0b01001001 = some (.symI false) ∧ decodeTableWord 8 0b01101001 = some (.symI true) := by decide
theorem test_decode_letters_J_to_R :
    decodeTableWord 8 0b01001010 = some (.symJ false) ∧ decodeTableWord 8 0b01101010 = some (.symJ true) ∧
    decodeTableWord 8 0b01001011 = some (.symK false) ∧ decodeTableWord 8 0b01101011 = some (.symK true) ∧
    decodeTableWord 8 0b01001100 = some (.symL false) ∧ decodeTableWord 8 0b01101100 = some (.symL true) ∧
    decodeTableWord 8 0b01001101 = some (.symM false) ∧ decodeTableWord 8 0b01101101 = some (.symM true) ∧
    decodeTableWord 8 0b01001110 = some (.symN false) ∧ decodeTableWord 8 0b01101110 = some (.symN true) ∧
    decodeTableWord 8 0b01001111 = some (.symO false) ∧ decodeTableWord 8 0b01101111 = some (.symO true) ∧
    decodeTableWord 8 0b01010000 = some (.symP false) ∧ decodeTableWord 8 0b01110000 = some (.symP true) ∧
    decodeTableWord 8 0b01010001 = some (.symQ false) ∧ decodeTableWord 8 0b01110001 = some (.symQ true) ∧
    decodeTableWord 8 0b01010010 = some (.symR false) ∧ decodeTableWord 8 0b01110010 = some (.symR true) := by decide
theorem test_decode_letters_S_to_Z :
    decodeTableWord 8 0b01010011 = some (.symS false) ∧ decodeTableWord 8 0b01110011 = some (.symS true) ∧
    decodeTableWord 8 0b01010100 = some (.symT false) ∧ decodeTableWord 8 0b01110100 = some (.symT true) ∧
    decodeTableWord 8 0b01010101 = some (.symU false) ∧ decodeTableWord 8 0b01110101 = some (.symU true) ∧
    decodeTableWord 8 0b01010110 = some (.symV false) ∧ decodeTableWord 8 0b01110110 = some (.symV true) ∧
    decodeTableWord 8 0b01010111 = some (.symW false) ∧ decodeTableWord 8 0b01110111 = some (.symW true) ∧
    decodeTableWord 8 0b01011000 = some (.symX false) ∧ decodeTableWord 8 0b01111000 = some (.symX true) ∧
    decodeTableWord 8 0b01011001 = some (.symY false) ∧ decodeTableWord 8 0b01111001 = some (.symY true) ∧
    decodeTableWord 8 0b01011010 = some (.symZ false) ∧ decodeTableWord 8 0b01111010 = some (.symZ true) := by decide
theorem test_decode_digits :
    decodeTableWord 8 0b00110010 = some .sym2 ∧
    decodeTableWord 8 0b00110011 = some .sym3 ∧
    decodeTableWord 8 0b00110100 = some .sym4 ∧
    decodeTableWord 8 0b00110101 = some .sym5 ∧
    decodeTableWord 8 0b00110110 = some .sym6 ∧
    decodeTableWord 8 0b00110111 = some .sym7 := by decide
theorem test_decode_pad : decodeTableWord 8 0b00111101 = some .pad := by decide
theorem test_decode_invalid : decodeTableWord 8 0b00100001 = some (.invalid 0x21) ∧ decodeTableWord 8 0b00110001 = some (.invalid 0x31) ∧
    decodeTableWord 8 0b00111000 = some (.invalid 0x38) ∧ decodeTableWord 8 0b10000001 = some (.invalid 0x81) := by decide
theorem test_decode_rejects_bit_beyond_command : (decodeBits 72 0x80000000000000000).toOption = none := by decide
theorem test_decode_rejects_too_long : (decodeBits 176 0).toOption = none := by decide
theorem test_printed_command : printedWord (.cmd (cmdWord 4 0x23523ec)) = "4:00000000023523ec".toList := by decide
theorem test_printed_ignored_bits_stand : printedWord (.cmd (cmdWord 1 0xfffffffffffffffe)) = "1:fffffffffffffffe".toList := by decide
theorem test_printed_instr_ignored_bits_zero : printedInstr (decodeCmd (cmdWord 1 0xffffffffffffffff)) = "1:0000000000000001".toList := by decide
theorem test_line_of_reserved : syntaxLine .reserved7 = "(reserved 7)".toList := by decide
theorem test_line_of_response : syntaxLine (.hmacResp 20 digest0) = "HMAC_RESP 20, cc93cf18508d94934c64b65d8ba7667fb7cde4b0".toList := by decide

/-! ## Steps: the examples of 40 to 45 and the single transactions V1 to V23 of 95_test_vectors.md section 2.7 -/

theorem test_nop_in_every_phase : after (exec .nop waiting) = some waiting := by decide
theorem test_push_outside_sets_fault_only : after (exec (.b32Push 0x21) State.reset) = some { State.reset with fault := true } := by decide
theorem test_end_outside_sets_fault_only : after (exec .b32End State.reset) = some { State.reset with fault := true } := by decide
theorem test_resp_outside_sets_fault_only : after (exec (.hmacResp 32 digest0) State.reset) = some { State.reset with fault := true } := by decide
theorem test_reserved_sets_fault_only : after (exec .reserved7 (generic 12 5 1)) = some { generic 12 5 1 with fault := true } := by decide
theorem test_hotp_without_key :
    after (exec (.hotp 5) State.reset) = some { State.reset with err := 4, events := [.codeDone 4] } := by decide
theorem test_hotp_without_key_status : (after (exec (.hotp 5) State.reset)).map statusWord = some 0x100 := by decide
theorem test_start_secret_status : (after (exec (.b32Start .secret) State.reset)).map statusWord = some 0x005 := by decide
theorem test_start_restarts : after (exec (.b32Start .generic) (generic 12 5 1)) = some (generic 0 0 0) := by decide
theorem test_start_secret_wipes_key : (after (exec (.b32Start .secret) keyed)).map (fun s => (s.keyValid, s.key)) =
    some (false, #v[0, 0, 0, 0, 0, 0, 0, 0, 0, 0]) := by decide
theorem test_start_in_wait_sets_fault_only : after (exec (.b32Start .secret) waiting) = some { waiting with fault := true } := by decide
theorem test_push_G_in_secret : after (exec (.b32Push 0x47) (secret 0 0 0 0 0)) = some (secret 6 5 1 1 0) := by decide
theorem test_push_E_in_secret_writes_key : after (exec (.b32Push 0x45) (secret 6 5 1 1 0)) =
      some { secret 0 2 2 2 1 with key := #v[0x31, 0, 0, 0, 0, 0, 0, 0, 0, 0] } := by decide
theorem test_push_Y_in_generic_emits : after (exec (.symY false) (generic 12 5 1)) =
    some { generic 0 2 2 with events := [.decByte 0x66] } := by decide
theorem test_push_7_keeps_leftover_bits : after (exec .sym7 (generic 12 5 1)) =
    some { generic 3 2 2 with events := [.decByte 0x67] } := by decide
theorem test_push_largest_window : after (exec (.symZ true) (generic 0x7F 7 3)) =
    some { generic 9 4 4 with events := [.decByte 0xFF] } := by decide
theorem test_17th_symbol_is_refused : after (exec (.symA false) (secret 0 0 0 16 10)) =
    some { secret 0 0 0 16 10 with err := 1 } := by decide
theorem test_16th_symbol_writes_key_9 : (after (exec (.symQ false) (secret 1 3 7 15 9))).map (fun s => (s.key[9], s.nbytes, s.nsym)) =
    some (0x30, 10, 16) := by decide
theorem test_pad_in_secret : after (exec .pad (secret 0 0 0 0 0)) = some { secret 0 0 0 0 0 with err := 1 } := by decide
theorem test_pad_in_generic : after (exec .pad (generic 12 5 1)) = some (generic 12 5 1) := by decide
theorem test_invalid_in_generic : after (exec (.invalid 0x38) (generic 12 5 1)) = some { generic 12 5 1 with err := 2 } := by decide
theorem test_end_generic_bad_group : after (exec .b32End (generic 24 6 6)) =
    some { State.reset with acc := 24, nbits := 6, gpos := 6, err := 3, events := [.decDone 3] } := by decide
theorem test_end_secret_good : (after (exec .b32End (secret 0 0 0 16 10))).map statusWord = some 0x00C := by decide
theorem test_hotp_packs_and_requests : after (exec (.hotp 37037036) keyed) =
    some { keyed with phase := .waitHmac, msg := #v[0, 0, 0, 0, 2, 0x35, 0x23, 0xEC],
                      events := [.hmacReq keyed.key #v[0, 0, 0, 0, 2, 0x35, 0x23, 0xEC]] } := by decide
theorem test_resp_stores_code : after (exec (.hmacResp 20 digest0) waiting) =
    some { waiting with phase := .idle, codeD := #v[7, 5, 5, 2, 2, 4], codeBin := 755224, codeValid := true,
                        events := [.codeDone 0] } := by decide
theorem test_resp_wrong_length_status : (after (exec (.hmacResp 0 digest0) waiting)).map statusWord = some 0x18C ∧
    (after (exec (.hmacResp 21 digest0) waiting)).map (fun s => (s.err, s.phase)) = some (6, .idle) := by decide
theorem test_truncate_examples : truncate 0x75a48a19d4cbe100644e8ac1397eea747a2d33ab = 0x41397EEA ∧
    truncate 0xffffffffffffffffffffffffffffffffffffffff = 0x7FFFFFFF ∧
    truncate 0x000102030405060708090a0b0c0d0e0f10111213 = 0x03040506 := by decide
theorem test_digits_with_leading_zero : digits (numericCode 198092045) = #v[0, 9, 2, 0, 4, 5] := by decide
theorem test_rst_beats_all : after (step { waiting with inputs := [{ rst := true, cmdValid := true, cmdOp := 7, cmdArg := 0, hmacRespValid := true, hmacRespLen := 20, hmacRespDigest := digest0 }] }) =
    some State.reset := by decide
theorem test_response_before_command : (after (step { waiting with inputs := [{ responseSlot 20 digest0 with cmdValid := true, cmdOp := 4, cmdArg := 9 }] })).map
    (fun s => (s.phase, s.codeBin, s.inputs)) = some (.idle, 755224, [{ responseSlot 20 digest0 with hmacRespValid := false, cmdValid := true, cmdOp := 4, cmdArg := 9 }]) := by decide
theorem test_first_step_runs_a_presented_word : after (step (State.reset.withFetchWord 72 0x10000000000000001)) =
    after (exec (.b32Start .secret) State.reset) := by decide
theorem test_decode_contract : b32decode [0x4D, 0x3D, 0x59] = .ok [0x66] ∧ b32decode [0x4D] = .err .invalidPadding ∧
    b32decode [0x4D, 0x21] = .err .invalidCharacter := by decide
theorem test_totp_step : totp 1111111109 = .hotp 37037036 ∧ totp 29 = .hotp 0 ∧ totp 0xffffffffffffffff = .hotp 614891469123651720 := by decide

/-! ## Witnesses: states and operands that meet the hypotheses of the statements -/

theorem inv_keyed : Inv keyed := by constructor <;> decide
theorem inv_waiting : Inv waiting := by constructor <;> decide
theorem inv_generic_0 : Inv (generic 0 0 0) := by constructor <;> decide
theorem inv_generic_2 : Inv (generic 3 2 2) := by constructor <;> decide
theorem inv_generic_3 : Inv (generic 7 3 7) := by constructor <;> decide
theorem inv_generic_7 : Inv (generic 127 7 3) := by constructor <;> decide
theorem inv_generic_failed : Inv { generic 0 0 0 with err := 2 } := by constructor <;> decide
theorem inv_secret_first : Inv (secret 0 0 0 0 0) := by constructor <;> decide
theorem inv_secret_2 : Inv (secret 3 2 2 2 1) := by constructor <;> decide
theorem inv_secret_15 : Inv (secret 7 3 7 15 9) := by constructor <;> decide
theorem inv_secret_16 : Inv (secret 0 0 0 16 10) := by constructor <;> decide

theorem witness_ResetInputBeatsCommandAndResponse : ∃ (s : State) (p : PortSlot) (rest : List PortSlot), s.inputs = p :: rest ∧ p.rst = true ∧ p.cmdValid = true ∧ p.hmacRespValid = true := 
  ⟨{ waiting with inputs := [{ responseSlot 20 digest0 with rst := true, cmdValid := true }] }, _, _, rfl, rfl, rfl, rfl⟩
theorem witness_LateResponseAfterResetSetsFault : ∃ s : State, s.phase = .waitHmac ∧ s.inputs = resetSlot :: responseSlot 20 digest0 :: [] := 
  ⟨{ waiting with inputs := [resetSlot, responseSlot 20 digest0] }, rfl, rfl⟩
theorem witness_PresentedTransactionIsDecodedAndRun_response : ∃ (s : State) (p : PortSlot) (rest : List PortSlot), s.inputs = p :: rest ∧ p.rst = false ∧ p.hmacRespValid = true ∧ p.cmdValid = false := 
  ⟨{ waiting with inputs := [responseSlot 20 digest0] }, _, _, rfl, rfl, rfl, rfl⟩
theorem witness_PresentedTransactionIsDecodedAndRun_both : ∃ (s : State) (p : PortSlot) (rest : List PortSlot), s.inputs = p :: rest ∧ p.rst = false ∧ p.hmacRespValid = true ∧ p.cmdValid = true := 
  ⟨{ waiting with inputs := [{ responseSlot 20 digest0 with cmdValid := true, cmdOp := 4, cmdArg := 9 }] }, _, _, rfl, rfl, rfl, rfl⟩
theorem witness_PresentedTransactionIsDecodedAndRun_command : ∃ (s : State) (p : PortSlot) (rest : List PortSlot), s.inputs = p :: rest ∧ p.rst = false ∧ p.hmacRespValid = false ∧ p.cmdValid = true := 
  ⟨{ keyed with inputs := [commandSlot 4 9] }, _, _, rfl, rfl, rfl, rfl⟩
theorem witness_ResponseRunsBeforeCommand : ∃ (s t : State) (p : PortSlot) (rest : List PortSlot), s.inputs = p :: rest ∧ p.rst = false ∧ p.hmacRespValid = true ∧
    p.cmdValid = true ∧ t.codeValid = true ∧
    exec (.hmacResp p.hmacRespLen p.hmacRespDigest) { s with inputs := { p with hmacRespValid := false } :: rest } = .next t := 
  ⟨{ waiting with inputs := [{ responseSlot 20 digest0 with cmdValid := true, cmdOp := 4, cmdArg := 9 }] }, _, _, _, rfl, rfl, rfl, rfl, rfl, rfl⟩
theorem witness_NothingPresentedChangesNothing_empty : ∃ s : State, s.inputs = [] := ⟨keyed, rfl⟩
theorem witness_NothingPresentedChangesNothing_quiet : ∃ (s : State) (p : PortSlot) (rest : List PortSlot), s.inputs = p :: rest ∧ p.rst = false ∧ p.cmdValid = false ∧ p.hmacRespValid = false := 
  ⟨{ keyed with inputs := [quietSlot] }, _, _, rfl, rfl, rfl, rfl⟩
theorem witness_TableWordPresentedIsRun : decodeTableWord 8 0x61 = some (.symA true) ∧ decodeTableWord 72 0x7ffffffffffffffff = some .reserved7 ∧
    decodeTableWord 168 0x14cc93cf18508d94934c64b65d8ba7667fb7cde4b0 = some (.hmacResp 20 digest0) := by decide
theorem witness_EventsOfAStepAreAtMostOneAndCloseWithErr_request : ∃ (i : Instr) (s t : State), Inv s ∧ exec i s = .next t ∧ t.events = s.events ++ [.hmacReq keyed.key (pack64be 1)] := ⟨.hotp 1, keyed, _, inv_keyed, rfl, by decide⟩
theorem witness_EventsOfAStepAreAtMostOneAndCloseWithErr_code_done : ∃ (i : Instr) (s t : State), Inv s ∧ exec i s = .next t ∧ t.events = s.events ++ [.codeDone 6] := ⟨.hmacResp 19 0, waiting, _, inv_waiting, rfl, rfl⟩
theorem witness_EventsOfAStepAreAtMostOneAndCloseWithErr_dec_done : ∃ (i : Instr) (s t : State), Inv s ∧ exec i s = .next t ∧ t.events = s.events ++ [.decDone 3] := ⟨.b32End, generic 127 7 3, _, inv_generic_7, rfl, rfl⟩
theorem witness_DecodeOfEncodeIsTheInstruction : (Instr.invalid 0).wf = true ∧ (Instr.invalid 0xFF).wf = true ∧ (Instr.hotp 0xffffffffffffffff).wf = true := by decide
theorem witness_CommandCodeSelectsCommand : (0xfffffffffffffffe : BitVec 64).toNat % 2 = 0 ∧ (0xffffffffffffffff : BitVec 64).toNat % 2 = 1 := by decide
theorem witness_IgnoredOperandBitsChangeNothing : agreeOnUsedBits 1 1 0xffffffffffffffff ∧ agreeOnUsedBits 2 0x41 0xffffffffffffff41 ∧ agreeOnUsedBits 4 7 7 ∧
    agreeOnUsedBits 3 0 0xffffffffffffffff := by
  refine ⟨⟨?_, ?_, ?_⟩, ⟨?_, ?_, ?_⟩, ⟨?_, ?_, ?_⟩, ?_, ?_, ?_⟩ <;> decide
theorem witness_ResponseFieldsAreLenAndDigest : 0 < 20 ∧ 19 < 20 ∧ (19 : Byte) ≠ 20 ∧ (0 : Byte) ≠ 20 ∧ (255 : Byte) ≠ 20 := by decide
theorem witness_B32StartOpensTransaction : State.reset.phase = .idle ∧ (generic 12 5 1).phase = .decoding ∧ waiting.phase = .waitHmac := by decide
theorem witness_PushedSymbolInGenericMode_no_byte : Inv (generic 3 2 2) ∧ classify 0x41 = .sym 0 ∧ (generic 3 2 2).phase = .decoding ∧ (generic 3 2 2).mode = .generic ∧
    (generic 3 2 2).err = 0 ∧ held (generic 3 2 2) < 8 := ⟨inv_generic_2, by decide⟩
theorem witness_PushedSymbolInGenericMode_byte : Inv (generic 7 3 7) ∧ classify 0x37 = .sym 31 ∧ (generic 7 3 7).phase = .decoding ∧ (generic 7 3 7).mode = .generic ∧
    (generic 7 3 7).err = 0 ∧ 8 ≤ held (generic 7 3 7) := ⟨inv_generic_3, by decide⟩
theorem witness_PushedSymbolInGenericMode_byte_largest : Inv (generic 127 7 3) ∧ classify 0x7A = .sym 25 ∧ 8 ≤ held (generic 127 7 3) := ⟨inv_generic_7, by decide⟩
theorem witness_PushedSymbolInGenericMode_pad_invalid : classify 0x3D = .pad ∧ classify 0x31 = .invalid ∧ (generic 12 5 1).phase = .decoding ∧ (generic 12 5 1).mode = .generic ∧
    (generic 12 5 1).err = 0 := by decide
theorem witness_PushedSymbolInSecretMode_too_long : Inv (secret 0 0 0 16 10) ∧ classify 0x41 = .sym 0 ∧ (secret 0 0 0 16 10).phase = .decoding ∧
    (secret 0 0 0 16 10).mode = .secret ∧ (secret 0 0 0 16 10).err = 0 ∧ (secret 0 0 0 16 10).nsym = 16 := ⟨inv_secret_16, by decide⟩
theorem witness_PushedSymbolInSecretMode_no_byte : Inv (secret 3 2 2 2 1) ∧ (secret 3 2 2 2 1).phase = .decoding ∧ (secret 3 2 2 2 1).mode = .secret ∧
    (secret 3 2 2 2 1).err = 0 ∧ (secret 3 2 2 2 1).nsym ≠ 16 ∧ held (secret 3 2 2 2 1) < 8 := ⟨inv_secret_2, by decide⟩
theorem witness_PushedSymbolInSecretMode_byte : Inv (secret 7 3 7 15 9) ∧ (secret 7 3 7 15 9).nbytes.toNat < 10 ∧ (secret 7 3 7 15 9).phase = .decoding ∧
    (secret 7 3 7 15 9).mode = .secret ∧ (secret 7 3 7 15 9).err = 0 ∧ (secret 7 3 7 15 9).nsym ≠ 16 ∧ 8 ≤ held (secret 7 3 7 15 9) := ⟨inv_secret_15, by decide⟩
theorem witness_PushedSymbolInSecretMode_pad_invalid : classify 0x3D = .pad ∧ classify 0x80 = .invalid ∧ (secret 0 0 0 0 0).phase = .decoding ∧
    (secret 0 0 0 0 0).mode = .secret ∧ (secret 0 0 0 0 0).err = 0 := by decide
theorem witness_PushAfterErrorOrOutsideTransaction : (∃ s : State, s.phase = .decoding ∧ s.err ≠ 0) ∧ (∃ s : State, s.phase ≠ .decoding) ∧
    ∃ s t : State, exec (.b32Push 0x41) s = .next t := 
  ⟨⟨{ generic 0 0 0 with err := 2 }, by decide⟩, ⟨waiting, by decide⟩, generic 0 0 0, _, rfl⟩
theorem witness_LetterRowsPushTheirValue : ((Instr.symA, 0) ∈ letterInstrs ∧ (Instr.symZ, 25) ∈ letterInstrs) ∧ Inv (generic 3 2 2) ∧ Inv (secret 7 3 7 15 9) := 
  ⟨⟨.head _, by simp [letterInstrs, lettersToZ]⟩, inv_generic_2, inv_secret_15⟩
theorem witness_DigitRowsPushTheirValue : ((Instr.sym2, 26) ∈ digitInstrs ∧ (Instr.sym7, 31) ∈ digitInstrs) ∧ Inv (generic 7 3 7) ∧ Inv (secret 0 0 0 16 10) := 
  ⟨⟨by decide, by decide⟩, inv_generic_3, inv_secret_16⟩
theorem witness_PadAndInvalidRows : ((generic 12 5 1).phase = .decoding ∧ (generic 12 5 1).err = 0 ∧ (generic 12 5 1).mode = .generic) ∧
    (secret 6 5 1 1 0).phase = .decoding ∧ (secret 6 5 1 1 0).err = 0 ∧ (secret 6 5 1 1 0).mode = .secret := by decide
theorem witness_AcceptConservesBits : ((0 : BitVec 7).toNat < 2 ^ (0 : BitVec 3).toNat ∧ (0 : BitVec 3).toNat < 3) ∧
    ((3 : BitVec 7).toNat < 2 ^ (2 : BitVec 3).toNat ∧ (2 : BitVec 3).toNat < 3) ∧
    ((7 : BitVec 7).toNat < 2 ^ (3 : BitVec 3).toNat ∧ 3 ≤ (3 : BitVec 3).toNat) ∧
    (127 : BitVec 7).toNat < 2 ^ (7 : BitVec 3).toNat ∧ 3 ≤ (7 : BitVec 3).toNat := by decide
theorem witness_KeyIndexStaysInRange : Inv (secret 7 3 7 15 9) ∧ (secret 7 3 7 15 9).phase = .decoding ∧ (secret 7 3 7 15 9).mode = .secret ∧
    (secret 7 3 7 15 9).nsym ≠ 16 ∧ completedByte (secret 7 3 7 15 9).acc (secret 7 3 7 15 9).nbits 31 = some 0xFF := ⟨inv_secret_15, by decide⟩
theorem witness_B32EndGeneric_bad_1 : (generic 0 5 1).phase = .decoding ∧ (generic 0 5 1).mode = .generic ∧ (generic 0 5 1).err = 0 ∧
    (generic 0 5 1).gpos.toNat ∈ [1, 3, 6] := by decide
theorem witness_B32EndGeneric_bad_3 : (generic 0 7 3).phase = .decoding ∧ (generic 0 7 3).mode = .generic ∧ (generic 0 7 3).err = 0 ∧
    (generic 0 7 3).gpos.toNat ∈ [1, 3, 6] := by decide
theorem witness_B32EndGeneric_bad_6 : (generic 0 6 6).phase = .decoding ∧ (generic 0 6 6).mode = .generic ∧ (generic 0 6 6).err = 0 ∧
    (generic 0 6 6).gpos.toNat ∈ [1, 3, 6] := by decide
theorem witness_B32EndGeneric_good : ((generic 0 0 0).phase = .decoding ∧ (generic 0 0 0).mode = .generic ∧ (generic 0 0 0).gpos.toNat ∉ [1, 3, 6]) ∧
    ((generic 0 2 2).gpos.toNat ∉ [1, 3, 6] ∧ (generic 0 3 7).gpos.toNat ∉ [1, 3, 6]) ∧
    ({ generic 0 5 1 with err := 2 } : State).phase = .decoding ∧ ({ generic 0 5 1 with err := 2 } : State).err ≠ 0 ∧ keyed.phase ≠ .decoding := by decide
theorem witness_B32EndSecret : ((secret 0 0 0 16 10).phase = .decoding ∧ (secret 0 0 0 16 10).mode = .secret ∧ (secret 0 0 0 16 10).err = 0 ∧
      (secret 0 0 0 16 10).nsym = 16) ∧
    ((secret 7 3 7 15 9).err = 0 ∧ (secret 7 3 7 15 9).nsym ≠ 16 ∧ (secret 0 0 0 0 0).nsym ≠ 16) ∧
    ({ secret 0 0 0 16 10 with err := 1 } : State).phase = .decoding ∧ ({ secret 0 0 0 16 10 with err := 1 } : State).err ≠ 0 ∧
    waiting.phase ≠ .decoding := by decide
theorem witness_HotpRequestsOrFails : (keyed.phase = .idle ∧ keyed.keyValid = true) ∧ (State.reset.phase = .idle ∧ State.reset.keyValid = false) ∧
    (generic 0 0 0).phase ≠ .idle ∧ waiting.phase ≠ .idle := by decide
theorem witness_CounterPackingIsABijection : pack64be 0xffffffffffffffff = pack64be (0 - 1) := by decide
theorem witness_HmacRespEndsTheCall : waiting.phase = .waitHmac ∧ (19 : Byte) ≠ 20 ∧ (21 : Byte) ≠ 20 ∧ keyed.phase ≠ .waitHmac ∧ (generic 0 0 0).phase ≠ .waitHmac := by decide
theorem witness_TruncateIgnoresBytesOutsideTheWindow : ∃ d d' : Digest, d ≠ d' ∧ (digestByte d 19).toNat % 16 = (digestByte d' 19).toNat % 16 ∧
    (digestByte d (truncOffset d)).toNat % 128 = (digestByte d' (truncOffset d)).toNat % 128 ∧
    ∀ j, 1 ≤ j → j ≤ 3 → digestByte d (truncOffset d + j) = digestByte d' (truncOffset d + j) := 
  ⟨0, 0x8000000000000000000000000000000000000010, by decide, by decide, by decide, by
    intro j h1 h3
    have : j = 1 ∨ j = 2 ∨ j = 3 := by omega
    rcases this with rfl | rfl | rfl <;> decide⟩
theorem witness_CodeIsSixDecimalDigits : (999999 : BitVec 20).toNat ≤ 999999 ∧ (0 : BitVec 20).toNat ≤ 999999 ∧ 0 < 6 ∧ 5 < 6 := by decide
theorem witness_DigitsSpellTheCode : ∃ n m : BitVec 20, n.toNat ≤ 999999 ∧ m.toNat ≤ 999999 ∧ digits n = digits m := ⟨999999, 999999, by decide⟩
theorem witness_PhaseTableDecidesAcceptanceAndNextPhase : (∃ (i : Instr) (s t : State), exec i s = .next t ∧ accepts s.phase i = true ∧ s.phase ≠ t.phase) ∧
    ∃ (i : Instr) (s t : State), exec i s = .next t ∧ accepts s.phase i = false := 
  ⟨⟨.hotp 0, keyed, _, rfl, by decide⟩, .hotp 0, waiting, _, rfl, by decide⟩
theorem witness_FaultIsStickyAndInert : ∃ (i : Instr) (s t : State), exec i s = .next t ∧ s.fault = true := ⟨.hotp 0, { keyed with fault := true }, _, rfl, rfl⟩
theorem witness_OnlyTheNamedTransactionsWriteTheDataRegisters_key : (∃ t, exec (.b32Start .secret) keyed = .next t ∧ t.key ≠ keyed.key ∧ t.keyValid = false ∧ keyed.keyValid = true) ∧
    (∃ t, exec .sym7 (secret 7 3 7 15 9) = .next t ∧ t.key ≠ (secret 7 3 7 15 9).key) ∧
    (∃ t, exec .b32End (secret 0 0 0 16 10) = .next t ∧ t.keyValid = true ∧ (secret 0 0 0 16 10).keyValid = false) ∧
    (∃ t, exec (.b32Start .generic) keyed = .next t ∧ t.mode ≠ keyed.mode) := 
  ⟨⟨_, rfl, by decide⟩, ⟨_, rfl, by decide⟩, ⟨_, rfl, by decide⟩, _, rfl, by decide⟩
theorem witness_OnlyTheNamedTransactionsWriteTheDataRegisters_code : (∃ t, exec (.hotp 2) { keyed with codeValid := true } = .next t ∧ t.msg ≠ keyed.msg ∧ t.codeValid = false) ∧
    ∃ t, exec (.hmacResp 20 digest0) waiting = .next t ∧ t.codeD ≠ waiting.codeD ∧ t.codeValid = true ∧ waiting.codeValid = false := 
  ⟨⟨_, rfl, by decide⟩, _, rfl, by decide⟩
theorem witness_ValidKeyChangesOnlyBySecretStart : ∃ (i : Instr) (s t : State), Inv s ∧ s.keyValid = true ∧ exec i s = .next t := ⟨.hotp 1, keyed, _, inv_keyed, rfl, rfl⟩
theorem witness_OpenTransactionKeepsItsFirstError : ∃ (i : Instr) (s t : State), Inv s ∧ s.err ≠ 0 ∧ exec i s = .next t := 
  ⟨.symA false, { generic 0 0 0 with err := 2 }, _, inv_generic_failed, by decide, rfl⟩
theorem witness_OnlyAResponseLeavesTheWait : ∃ (i : Instr) (s t : State), s.phase = .waitHmac ∧ exec i s = .next t := ⟨.b32End, waiting, _, rfl, rfl⟩
theorem witness_OnlyAResponseLeavesTheWait_response : ∃ (i : Instr) (s t : State), s.phase = .waitHmac ∧ exec i s = .next t ∧ t.phase = .idle := ⟨.hmacResp 20 digest0, waiting, _, rfl, rfl, rfl⟩
theorem witness_KeyIsNotReadBack : (∃ t, exec (.hotp 1) keyed = .next t) ∧ ∃ t, exec (.hmacResp 20 0) waiting = .next t ∧ t.phase ≠ .waitHmac := 
  ⟨⟨_, rfl⟩, _, rfl, by decide⟩
theorem witness_OutputPortsShowTheState : waiting.phase = .waitHmac ∧ keyed.phase ≠ .waitHmac := by decide
theorem witness_RequestPortsCarryKeyAndCounter : keyed.phase = .idle ∧ keyed.keyValid = true := by decide
theorem witness_EveryStepKeepsTheInvariant : ∃ s t : State, Inv s ∧ step s = .next t ∧ t.phase = .waitHmac := 
  ⟨{ keyed with inputs := [commandSlot 4 1] }, _, by constructor <;> decide, rfl, rfl⟩
/-- The key of a secret of sixteen `7`: ten bytes 0xFF. -/
def loadedFF : State := { State.reset with mode := .secret, keyValid := true, key := #v[255, 255, 255, 255, 255, 255, 255, 255, 255, 255] }

theorem witness_KeyIsTheLastLoadedSecretDecoded_loaded : ∃ (i : Instr) (s t : State) (h : SecretHistory), KeyTracks s h ∧ s.keyValid = true ∧ exec i s = .next t := 
  ⟨.hotp 1, loadedFF, _, ⟨[], List.replicate 16 31⟩, ⟨by constructor <;> decide, by decide, by decide, by decide, by decide⟩, rfl, rfl⟩
theorem witness_KeyIsTheLastLoadedSecretDecoded_open : ∃ (i : Instr) (s t : State) (h : SecretHistory), KeyTracks s h ∧ secretOpen s = true ∧ exec i s = .next t := 
  ⟨.symE false, secret 6 5 1 1 0, _, ⟨[6], []⟩, ⟨by constructor <;> decide, by decide, by decide, by decide, by decide⟩, rfl, rfl⟩
theorem witness_GenericTransactionComputesDecode : State.reset.phase ≠ .waitHmac ∧ (generic 12 5 1).phase ≠ .waitHmac ∧ b32decode [] = .ok [] ∧
    b32decode [0x4D, 0x59] = .ok [0x66] ∧ b32decode [0x4D] = .err .invalidPadding ∧ b32decode [0x30] = .err .invalidCharacter := by decide
theorem witness_GenericTransactionStreamsTheSymbolsBeforeAnError : (secret 7 3 7 15 9).phase ≠ .waitHmac := by decide
theorem witness_SecretTransactionLoadsTheKey : keyed.phase ≠ .waitHmac ∧ validSecret (List.replicate 16 0x37) = true ∧ validSecret (List.replicate 15 0x37) = false ∧
    validSecret (List.replicate 17 0x37) = false ∧ validSecret [] = false := by decide
theorem witness_WholeCallComputesHotp : keyed.phase = .idle ∧ keyed.keyValid = true := by decide
theorem witness_DecodeLengthIsFiveEighths : b32decode [0x37, 0x37] = .ok [0xFF] ∧ validSecret (List.replicate 16 0x37) = true := by decide
theorem witness_PadsAndCaseDoNotChangeTheDecoding : (0x3D : Byte) ∈ [(0x37 : Byte), 0x3D] := by decide
theorem witness_ErrorsLeaveWhatTheTableSays_1 : ∃ (i : Instr) (s t : State), Inv s ∧ exec i s = .next t ∧ t.err ≠ s.err ∧ t.err = 1 := 
  ⟨.pad, secret 0 0 0 0 0, _, inv_secret_first, rfl, by decide, rfl⟩
theorem witness_ErrorsLeaveWhatTheTableSays_2 : ∃ (i : Instr) (s t : State), Inv s ∧ exec i s = .next t ∧ t.err ≠ s.err ∧ t.err = 2 := 
  ⟨.invalid 0, generic 0 0 0, _, inv_generic_0, rfl, by decide, rfl⟩
theorem witness_ErrorsLeaveWhatTheTableSays_3 : ∃ (i : Instr) (s t : State), Inv s ∧ exec i s = .next t ∧ t.err ≠ s.err ∧ t.err = 3 := 
  ⟨.b32End, generic 127 7 3, _, inv_generic_7, rfl, by decide, rfl⟩
theorem witness_ErrorsLeaveWhatTheTableSays_6 : ∃ (i : Instr) (s t : State), Inv s ∧ exec i s = .next t ∧ t.err ≠ s.err ∧ t.err = 6 := 
  ⟨.hmacResp 0 0, waiting, _, inv_waiting, rfl, by decide, rfl⟩
theorem witness_ErrorsLeaveWhatTheTableSays_4 : ∃ (i : Instr) (s t : State), Inv s ∧ exec i s = .next t ∧ t.err ≠ s.err ∧ t.err = 4 := 
  ⟨.hotp 0, { State.reset with codeValid := true }, _, by constructor <;> decide, rfl, by decide, rfl⟩
theorem witness_DutifulAnswerEndsTheCallWell : Inv waiting ∧ UnitKeepsDuties waiting (.hmacResp 20 (Config.hmac waiting.key waiting.msg)) ∧ waiting.msg = pack64be 1 ∧
    waiting.inputs = [] := 
  ⟨inv_waiting, fun _ _ _ => ⟨rfl, rfl⟩, by decide, rfl⟩

end Sys2Proof.Tests
end

section
/-! SUPPORT. Proofs of the statements of 10_state.md: the reset table (R27) and the output ports as numbers (R21, R26, R132). -/

namespace Sys2Proof.Machine

/-! ### The array registers at reset -/

@[simp] theorem State.reset_key : State.reset.key = Vector.replicate 10 0 := rfl
@[simp] theorem State.reset_msg : State.reset.msg = Vector.replicate 8 0 := rfl
@[simp] theorem State.reset_codeD : State.reset.codeD = Vector.replicate 6 0 := rfl

/-! ### `STATUS` as a number -/

/-- The fields that `statusWord` shifts into place do not overlap: they stand side by side (10_state.md R21). -/
theorem statusWord_eq_append (s : State) :
    statusWord s = s.err ++ BitVec.ofBool s.fault ++ BitVec.ofBool s.codeValid ++ BitVec.ofBool s.keyValid ++
      modeBit s.mode ++ phaseBits s.phase := by
  apply BitVec.eq_of_getLsbD_eq
  intro i hi
  simp only [BitVec.getLsbD_append]
  interval_cases i <;> simp [statusWord]

theorem toNat_append_eq_add {m n : Nat} (x : BitVec m) (y : BitVec n) :
    (x ++ y).toNat = x.toNat * 2 ^ n + y.toNat := by
  rw [BitVec.toNat_append, ← Nat.shiftLeft_add_eq_or_of_lt y.isLt, Nat.shiftLeft_eq]

theorem statusWord_toNat (s : State) :
    (statusWord s).toNat = (phaseBits s.phase).toNat + 4 * (modeBit s.mode).toNat + 8 * s.keyValid.toNat +
      16 * s.codeValid.toNat + 32 * s.fault.toNat + 64 * s.err.toNat := by
  simp only [statusWord_eq_append, toNat_append_eq_add, BitVec.toNat_ofBool]
  omega

theorem mul_toNat_eq_ite (n : Nat) (b : Bool) : n * b.toNat = if b then n else 0 := by
  cases b
  · rfl
  · exact Nat.mul_one n

/-! ### Lanes: the digits of a number in base `2 ^ w` -/

/-- The number whose digits in base `2 ^ w` are the entries of `v`, the first one most significant. `bytesNumber` and `bcdNumber` are
its cases `w = 8` and `w = 4`. -/
def lanesNumber {w n : Nat} (v : Vector (BitVec w) n) : Nat :=
  Nat.ofDigits (2 ^ w) (v.toList.map BitVec.toNat).reverse

theorem bytesNumber_eq_lanesNumber {n : Nat} (v : Vector Byte n) : bytesNumber v.toList = lanesNumber v := by
  simp [bytesNumber, lanesNumber, Nat.ofDigits_eq_foldr, List.foldl_map, Nat.add_comm, Nat.mul_comm]

theorem bcdNumber_eq_lanesNumber {n : Nat} (v : Vector Digit n) : bcdNumber v.toList = lanesNumber v := by
  simp [bcdNumber, lanesNumber, Nat.ofDigits_eq_foldr, List.foldl_map, Nat.add_comm, Nat.mul_comm]

theorem lanesNumber_lt {w n : Nat} (hw : w ≠ 0) (v : Vector (BitVec w) n) : lanesNumber v < 2 ^ (w * n) := by
  have h := Nat.ofDigits_lt_base_pow_length (Nat.one_lt_two_pow hw) (l := (v.toList.map BitVec.toNat).reverse)
    (by simp +contextual [BitVec.isLt])
  simpa [lanesNumber, pow_mul] using h

theorem ofDigits_div_pow_mod {b i : Nat} {L : List Nat} (hL : ∀ d ∈ L, d < b) (hi : i < L.length) :
    Nat.ofDigits b L / b ^ i % b = L[i] := by
  have hd : L[i] < b := hL _ (List.getElem_mem hi)
  rw [Nat.ofDigits_div_pow_eq_ofDigits_drop i (by omega) L hL, List.drop_eq_getElem_cons hi, Nat.ofDigits_cons,
    Nat.add_mul_mod_self_left, Nat.mod_eq_of_lt hd]

/-- Reading a lane of the number gives the entry back. -/
theorem lanesNumber_div_pow_mod {w n : Nat} (v : Vector (BitVec w) n) (i : Fin n) :
    lanesNumber v / (2 ^ w) ^ (n - 1 - i.val) % 2 ^ w = v[i].toNat := by
  rw [lanesNumber, ofDigits_div_pow_mod (by simp +contextual [BitVec.isLt]) (by simp; omega)]
  have hi : n - 1 - (n - 1 - i.val) = i.val := by omega
  simp [hi]

/-! ### The lanes of the wide ports -/

theorem keyLanes_toNat (k : Key) : (keyLanes k).toNat = lanesNumber k := by
  rw [keyLanes, bytesNumber_eq_lanesNumber, BitVec.toNat_ofNat, Nat.mod_eq_of_lt (lanesNumber_lt (by decide) k)]

theorem msgLanes_toNat (m : Msg) : (msgLanes m).toNat = lanesNumber m := by
  rw [msgLanes, bytesNumber_eq_lanesNumber, BitVec.toNat_ofNat, Nat.mod_eq_of_lt (lanesNumber_lt (by decide) m)]

theorem bcdLanes_toNat (d : Vector Digit 6) : (bcdLanes d).toNat = lanesNumber d := by
  rw [bcdLanes, bcdNumber_eq_lanesNumber, BitVec.toNat_ofNat, Nat.mod_eq_of_lt (lanesNumber_lt (by decide) d)]

theorem hmacKeyPort_of_waitHmac {s : State} (h : s.phase = .waitHmac) : hmacKeyPort s = keyLanes s.key := if_pos h
theorem hmacMsgPort_of_waitHmac {s : State} (h : s.phase = .waitHmac) : hmacMsgPort s = msgLanes s.msg := if_pos h
theorem hmacKeyPort_of_not_waitHmac {s : State} (h : s.phase ≠ .waitHmac) : hmacKeyPort s = 0 := if_neg h
theorem hmacMsgPort_of_not_waitHmac {s : State} (h : s.phase ≠ .waitHmac) : hmacMsgPort s = 0 := if_neg h

end Sys2Proof.Machine

namespace Sys2Proof.Proofs

open Sys2Proof.Machine Sys2Proof.Statements

theorem laneByte_lanesNumber {n : Nat} (v : Vector Byte n) (i : Fin n) : laneByte n (lanesNumber v) i.val = v[i].toNat :=
  lanesNumber_div_pow_mod v i

/-- Settles O1: `State.reset` writes out the table of R27, the arrays as zeros throughout. -/
theorem resetRegistersHoldTableValues : Obligations.ResetRegistersHoldTableValues := by
  unfold Obligations.ResetRegistersHoldTableValues
  refine ⟨rfl, rfl, ?key, rfl, ?msg, ?codeD, rfl, rfl, rfl, rfl, rfl, rfl, rfl, rfl, rfl⟩
  case key => simp
  case msg => simp
  case codeD => simp

/-- Settles O47: `STATUS` is a concatenation, and every lane of a wide port is a digit of the number the register spells. -/
theorem outputPortsShowTheState : Obligations.OutputPortsShowTheState := by
  unfold Obligations.OutputPortsShowTheState
  intro s
  refine ⟨?status, ?codeBcd, rfl, ?hmacKey, ?hmacMsg, ?otherPhase⟩
  case status =>
    simp only [statusWord_toNat, mul_toNat_eq_ite]
    cases s.phase <;> cases s.mode <;> rfl
  case codeBcd =>
    intro i
    rw [codeBcdPort, bcdLanes_toNat]
    exact lanesNumber_div_pow_mod s.codeD i
  case hmacKey =>
    intro h i
    rw [hmacKeyPort_of_waitHmac h, keyLanes_toNat, laneByte_lanesNumber]
  case hmacMsg =>
    intro h i
    rw [hmacMsgPort_of_waitHmac h, msgLanes_toNat, laneByte_lanesNumber]
  case otherPhase =>
    exact fun h => ⟨hmacKeyPort_of_not_waitHmac h, hmacMsgPort_of_not_waitHmac h⟩

end Sys2Proof.Proofs
end

section
/-! SUPPORT. Proofs of the statements of 30_encoding.md: the command table and its operands (R60 to R63), the response word (R64), and
the alphabet table (R66). -/

namespace Sys2Proof

/-! ### Operands as the numbers their fields spell -/

theorem modeOperand_eq_ite (arg : BitVec 64) : modeOperand arg = if arg.toNat % 2 = 1 then .secret else .generic := by
  simp only [modeOperand, BitVec.getLsbD, Nat.testBit_zero, decide_eq_true_eq]

theorem charOperand_eq_ofNat (arg : BitVec 64) : charOperand arg = BitVec.ofNat 8 (arg.toNat % 256) := by
  apply BitVec.eq_of_toNat_eq
  simp [charOperand]

/-! ### The code table of R60 -/

section CodeTable

variable (arg : BitVec 64)

theorem decodeCmd_code0 : decodeCmd (cmdWord 0 arg) = .nop := by simp [decodeCmd]
theorem decodeCmd_code1 : decodeCmd (cmdWord 1 arg) = .b32Start (modeOperand arg) := by simp [decodeCmd]
theorem decodeCmd_code2 : decodeCmd (cmdWord 2 arg) = .b32Push (charOperand arg) := by simp [decodeCmd]
theorem decodeCmd_code3 : decodeCmd (cmdWord 3 arg) = .b32End := by simp [decodeCmd]
theorem decodeCmd_code4 : decodeCmd (cmdWord 4 arg) = .hotp arg := by simp [decodeCmd, counterOperand]
theorem decodeCmd_code5 : decodeCmd (cmdWord 5 arg) = .reserved5 := by simp [decodeCmd]
theorem decodeCmd_code6 : decodeCmd (cmdWord 6 arg) = .reserved6 := by simp [decodeCmd]
theorem decodeCmd_code7 : decodeCmd (cmdWord 7 arg) = .reserved7 := by simp [decodeCmd]

end CodeTable

theorem cmdCode_cases (op : BitVec 3) :
    op = 0 ∨ op = 1 ∨ op = 2 ∨ op = 3 ∨ op = 4 ∨ op = 5 ∨ op = 6 ∨ op = 7 := by
  revert op; decide

/-! ### The fields of a response word -/

theorem respLenField_eq_ofNat (w : RespWord) : respLenField w = BitVec.ofNat 8 (w.toNat / 2 ^ 160) := by
  rw [respLenField, BitVec.extractLsb', Nat.shiftRight_eq_div_pow]

theorem respDigestField_eq_ofNat (w : RespWord) : respDigestField w = BitVec.ofNat 160 (w.toNat % 2 ^ 160) := by
  apply BitVec.eq_of_toNat_eq
  simp [respDigestField]

/-- The bytes of the digest lie in the word where R64 puts them: the field starts at bit 0. -/
theorem digestByte_respDigestField (w : RespWord) {i : Nat} (hi : i < 20) :
    Machine.digestByte (respDigestField w) i = w.extractLsb' (8 * (19 - i)) 8 := by
  apply BitVec.eq_of_getLsbD_eq
  intro j hj
  have h : 8 * (19 - i) + j < 160 := by omega
  simp [Machine.digestByte, respDigestField, hj, h]

namespace Machine

theorem exec_hmacResp (len : Byte) (d : Digest) (s : State) :
    exec (.hmacResp len d) s = runIfAccepted (s.phase = .waitHmac) (takeResponse len d) s := rfl

/-- A response of another length ends the call the same way whatever its digest is. -/
theorem takeResponse_of_len_ne {len : Byte} (h : len ≠ 20) (d : Digest) :
    takeResponse len d = fun s => emit (.codeDone 6) (raise .contractViolation { s with phase := .idle }) := by
  funext s
  rcases takeResponse_cases len d s with ⟨h20, -⟩ | ⟨-, ht⟩
  · exact absurd h20 h
  · exact ht

/-! ### The alphabet table of R66 -/

theorem normaliseCase_of_lower {ch : Byte} (h : 0x61 ≤ ch ∧ ch ≤ 0x7A) : normaliseCase ch = ch - 0x20 := if_pos h

theorem normaliseCase_of_not_lower {ch : Byte} (h : ¬(0x61 ≤ ch ∧ ch ≤ 0x7A)) : normaliseCase ch = ch := if_neg h

/-- The letters in upper case have the values 0 to 25. -/
theorem classify_upper {n : Nat} (h : n < 26) : classify (BitVec.ofNat 8 (0x41 + n)) = .sym (BitVec.ofNat 5 n) := by
  have hc : normaliseCase (BitVec.ofNat 8 (0x41 + n)) = BitVec.ofNat 8 (0x41 + n) :=
    normaliseCase_of_not_lower (by bv_omega)
  have hv : (BitVec.ofNat 8 (0x41 + n) - 0x41).setWidth 5 = BitVec.ofNat 5 n := by bv_omega
  rw [classify, hc, if_pos (by bv_omega), hv]

/-- Lower case is brought to upper case first (R67). -/
theorem classify_lower {n : Nat} (h : n < 26) :
    classify (BitVec.ofNat 8 (0x61 + n)) = classify (BitVec.ofNat 8 (0x41 + n)) := by
  have hl : normaliseCase (BitVec.ofNat 8 (0x61 + n)) = BitVec.ofNat 8 (0x61 + n) - 0x20 :=
    normaliseCase_of_lower (by bv_omega)
  have hu : normaliseCase (BitVec.ofNat 8 (0x41 + n)) = BitVec.ofNat 8 (0x41 + n) :=
    normaliseCase_of_not_lower (by bv_omega)
  have hlu : BitVec.ofNat 8 (0x61 + n) - 0x20 = BitVec.ofNat 8 (0x41 + n) := by bv_omega
  simp only [classify, hl, hu, hlu]

theorem classify_digit {n : Nat} (h : n < 6) :
    classify (BitVec.ofNat 8 (0x32 + n)) = .sym (BitVec.ofNat 5 (26 + n)) := by
  have hc : normaliseCase (BitVec.ofNat 8 (0x32 + n)) = BitVec.ofNat 8 (0x32 + n) :=
    normaliseCase_of_not_lower (by bv_omega)
  have hv : (BitVec.ofNat 8 (0x32 + n) - 0x32 + 26).setWidth 5 = BitVec.ofNat 5 (26 + n) := by bv_omega
  rw [classify, hc, if_neg (by bv_omega), if_pos (by bv_omega), hv]

@[simp] theorem classify_pad : classify 0x3D = .pad := rfl

/-- `INVALID` is what no range of the table takes. -/
theorem classify_eq_invalid_iff_normaliseCase (ch : Byte) :
    classify ch = .invalid ↔ ¬(0x41 ≤ normaliseCase ch ∧ normaliseCase ch ≤ 0x5A) ∧
      ¬(0x32 ≤ normaliseCase ch ∧ normaliseCase ch ≤ 0x37) ∧ normaliseCase ch ≠ 0x3D := by
  simp only [classify]
  split_ifs <;> simp_all

/-- The gaps between the ranges of R66, both cases of a letter taken, are the ranges of the row `INVALID`. -/
theorem classify_eq_invalid_iff (ch : Byte) : classify ch = .invalid ↔ isInvalidByte ch = true := by
  rw [classify_eq_invalid_iff_normaliseCase]
  simp only [isInvalidByte, Bool.or_eq_true, Bool.and_eq_true, decide_eq_true_eq]
  by_cases h : 0x61 ≤ ch ∧ ch ≤ 0x7A
  · rw [normaliseCase_of_lower h]
    bv_omega
  · rw [normaliseCase_of_not_lower h]
    bv_omega

end Machine

end Sys2Proof

namespace Sys2Proof.Proofs

open Sys2Proof.Machine Sys2Proof.Statements

/-- Settles O14, code by code: codes 1, 2 and 4 read their operand field alone, and the others none. -/
theorem ignoredOperandBitsChangeNothing : Obligations.IgnoredOperandBitsChangeNothing := by
  unfold Obligations.IgnoredOperandBitsChangeNothing
  rintro op a b ⟨hmode, hchar, hcounter⟩
  rcases cmdCode_cases op with rfl | rfl | rfl | rfl | rfl | rfl | rfl | rfl
  · rw [decodeCmd_code0, decodeCmd_code0]
  · rw [decodeCmd_code1, decodeCmd_code1, modeOperand, modeOperand, hmode rfl]
  · rw [decodeCmd_code2, decodeCmd_code2, charOperand_eq_ofNat, charOperand_eq_ofNat, hchar rfl]
  · rw [decodeCmd_code3, decodeCmd_code3]
  · rw [hcounter rfl]
  · rw [decodeCmd_code5, decodeCmd_code5]
  · rw [decodeCmd_code6, decodeCmd_code6]
  · rw [decodeCmd_code7, decodeCmd_code7]

/-- Settles O13: the code table of R60 with the operands as numbers. -/
theorem commandCodeSelectsCommand : Obligations.CommandCodeSelectsCommand := by
  unfold Obligations.CommandCodeSelectsCommand
  intro arg
  refine ⟨decodeCmd_code0 arg, ?generic, ?secret, ?char, decodeCmd_code3 arg, decodeCmd_code4 arg, decodeCmd_code5 arg,
    decodeCmd_code6 arg, decodeCmd_code7 arg⟩
  case generic =>
    intro h
    rw [decodeCmd_code1, modeOperand_eq_ite, if_neg (by omega)]
  case secret =>
    intro h
    rw [decodeCmd_code1, modeOperand_eq_ite, if_pos h]
  case char => rw [decodeCmd_code2, charOperand_eq_ofNat]

/-- Settles O15: the fields of R64 as numbers, and a response of another length is answered without its digest. -/
theorem responseFieldsAreLenAndDigest : Obligations.ResponseFieldsAreLenAndDigest := by
  unfold Obligations.ResponseFieldsAreLenAndDigest
  refine ⟨fun w => ⟨?fields, ?bytes⟩, ?otherLen⟩
  case fields => rw [decodeResp, respLenField_eq_ofNat, respDigestField_eq_ofNat]
  case bytes =>
    intro i hi
    rw [digestByte_respDigestField w hi, BitVec.extractLsb'_toNat, Nat.shiftRight_eq_div_pow]
  case otherLen =>
    intro len d d' s h
    simp only [exec_hmacResp, takeResponse_of_len_ne h]

/-- Settles O16, range by range. -/
theorem classifyIsTheAlphabetTable : Obligations.ClassifyIsTheAlphabetTable := by
  unfold Obligations.ClassifyIsTheAlphabetTable
  refine ⟨fun k => ⟨classify_upper k.isLt, ?lower⟩, fun k => classify_digit k.isLt, classify_pad, classify_eq_invalid_iff⟩
  case lower => rw [classify_lower k.isLt, classify_upper k.isLt]

/-- Settles O34: the reserved rows of the code table have `dropWithFault` as their whole meaning. -/
theorem reservedCodesOnlySetFault : Obligations.ReservedCodesOnlySetFault := by
  unfold Obligations.ReservedCodesOnlySetFault
  exact ⟨fun arg => ⟨decodeCmd_code5 arg, decodeCmd_code6 arg, decodeCmd_code7 arg⟩, fun _ => ⟨rfl, rfl, rfl⟩⟩

end Sys2Proof.Proofs
end

section
/-! SUPPORT. Proofs of the statements of 40_base32_decoder.md about one transaction: `B32_START` (R95), the push of a character in an open
transaction (R94, R97, R98) and `B32_END` (R99, R100). -/

namespace Sys2Proof.Machine

open Sys2Proof.Statements

/-! ### The three commands where they are accepted, and where they are dropped -/

theorem exec_b32Start_of_accepted {s : State} (hp : s.phase = .idle ∨ s.phase = .decoding) (m : Mode) :
    exec (.b32Start m) s = .next (startDecode m s) := by
  rcases hp with hp | hp <;> simp [exec, execB32Start, hp]

theorem exec_b32Start_of_waitHmac {s : State} (hp : s.phase = .waitHmac) (m : Mode) :
    exec (.b32Start m) s = .next (dropWithFault s) := by
  simp [exec, execB32Start, hp]

theorem exec_b32Push (ch : Byte) : exec (.b32Push ch) = pushClass (classify ch) := rfl

theorem exec_b32End_of_decoding {s : State} (hp : s.phase = .decoding) : exec .b32End s = .next (endDecode s) := by
  simp [exec, execB32End, hp]

theorem exec_b32End_of_not_decoding {s : State} (hp : s.phase ≠ .decoding) :
    exec .b32End s = .next (dropWithFault s) := by
  simp [exec, execB32End, hp]

/-! ### The shift-in of R94 on numbers -/

theorem shiftedCount_eq_held (s : State) : shiftedCount s.nbits = held s := rfl

theorem shiftedBits_toNat_eq_shifted (s : State) (v : SymVal) : (shiftedBits s.acc v).toNat = shifted s v :=
  shiftedBits_toNat s.acc v

theorem lowMask_toNat {k : Nat} (hk : k < 12) : ((1#12 <<< k) - 1).toNat = 2 ^ k - 1 := by
  revert k; decide

/-- Fewer than 8 bits are held: no byte leaves. -/
theorem completedByte_of_held_lt {s : State} (h : held s < 8) (v : SymVal) : completedByte s.acc s.nbits v = none :=
  completedByte_none (by unfold held at h; omega)

/-- At least 8 bits are held: the oldest 8 leave. -/
theorem completedByte_of_le_held {s : State} (h : 8 ≤ held s) (v : SymVal) :
    completedByte s.acc s.nbits v = some (newByte s v) := by
  have hb : (shiftedBits s.acc v).extractLsb' (held s - 8) 8 = newByte s v := by
    rw [BitVec.extractLsb', shiftedBits_toNat_eq_shifted, Nat.shiftRight_eq_div_pow, newByte]
  rw [completedByte, shiftedCount_eq_held, if_pos h, hb]

theorem acceptSymbol_of_held_lt {s : State} (h : held s < 8) (v : SymVal) :
    acceptSymbol v s =
      { s with acc := BitVec.ofNat 7 (shifted s v), nbits := BitVec.ofNat 3 (held s), gpos := s.gpos + 1 } := by
  have hacc : accAfter s.acc s.nbits v = BitVec.ofNat 7 (shifted s v) := by
    rw [accAfter, shiftedCount_eq_held, if_neg (Nat.not_le.2 h), ← BitVec.ofNat_toNat, shiftedBits_toNat_eq_shifted]
  have hnbits : nbitsAfter s.nbits = BitVec.ofNat 3 (held s) := if_neg (Nat.not_le.2 h)
  rw [acceptSymbol, hacc, hnbits]

/-- The mask of `accAfter` keeps the bits below the byte that leaves: the remainder by `2 ^ (n - 8)`. -/
theorem acceptSymbol_of_le_held {s : State} (h : 8 ≤ held s) (v : SymVal) :
    acceptSymbol v s =
      { s with
        acc := BitVec.ofNat 7 (shifted s v % 2 ^ (held s - 8)), nbits := BitVec.ofNat 3 (held s - 8), gpos := s.gpos + 1 } := by
  have hk : held s - 8 < 12 := by
    have := s.nbits.isLt
    unfold held
    omega
  have hacc : accAfter s.acc s.nbits v = BitVec.ofNat 7 (shifted s v % 2 ^ (held s - 8)) := by
    rw [accAfter, shiftedCount_eq_held, if_pos h, ← BitVec.ofNat_toNat, BitVec.toNat_and, shiftedBits_toNat_eq_shifted,
      lowMask_toNat hk, Nat.and_two_pow_sub_one_eq_mod]
  have hnbits : nbitsAfter s.nbits = BitVec.ofNat 3 (held s - 8) := if_pos h
  rw [acceptSymbol, hacc, hnbits]

/-! ### A character in an open transaction without error -/

section OpenTransaction

variable {s : State} (hp : s.phase = .decoding) (he : s.err = 0)

include hp he

theorem pushClass_of_generic (hm : s.mode = .generic) (c : CharClass) : pushClass c s = .next (pushGeneric c s) := by
  simp [pushClass, pushOpen, hp, hm, he]

theorem pushClass_of_secret (hm : s.mode = .secret) (c : CharClass) : pushClass c s = .next (pushSecret c s) := by
  simp [pushClass, pushOpen, hp, hm, he]

end OpenTransaction

/-- The push of a symbol's class is what R98 says of the symbol, whichever instruction asked for it. -/
theorem pushClass_pushesGenericSymbol (v : SymVal) : PushesGenericSymbol v (pushClass (.sym v)) := by
  intro s _ hp hm he
  rw [pushClass_of_generic hp he hm, pushGeneric]
  constructor
  · intro h
    rw [completedByte_of_held_lt h, acceptSymbol_of_held_lt h]
  · intro h
    rw [completedByte_of_le_held h, acceptSymbol_of_le_held h]; rfl

/-- An index in range writes its register; the guard of `writeKeyByte` (log 5) is then never used. -/
theorem key_setIfInBounds_of_lt (k : Key) {i : Nat} (hi : i < 10) (b : Byte) : k.setIfInBounds i b = k.set i b hi := by
  ext j hj
  rw [Vector.getElem_setIfInBounds, Vector.getElem_set]

/-- The push of a symbol's class is what R97 says of the symbol, whichever instruction asked for it. -/
theorem pushClass_pushesSecretSymbol (v : SymVal) : PushesSecretSymbol v (pushClass (.sym v)) := by
  intro s _ hp hm he
  rw [pushClass_of_secret hp he hm, pushSecret]
  refine ⟨?tooLong, ?noByte, ?byte⟩
  case tooLong =>
    intro hn
    rw [if_pos hn]; rfl
  case noByte =>
    intro hn h
    rw [if_neg hn, takeSecretSymbol, completedByte_of_held_lt h, acceptSymbol_of_held_lt h]
  case byte =>
    intro hk hn h
    rw [if_neg hn, takeSecretSymbol, completedByte_of_le_held h, acceptSymbol_of_le_held h]
    simp only [writeKeyByte, key_setIfInBounds_of_lt s.key hk]

/-! ### The end of a transaction -/

theorem badTrailingGroup_iff (gpos : BitVec 3) : badTrailingGroup gpos = true ↔ gpos.toNat ∈ [1, 3, 6] := by
  revert gpos; decide

theorem endDecode_of_generic {s : State} (hm : s.mode = .generic) : endDecode s = endGeneric s := by
  simp [endDecode, hm]

theorem endDecode_of_secret {s : State} (hm : s.mode = .secret) : endDecode s = endSecret s := by
  simp [endDecode, hm]

end Sys2Proof.Machine

namespace Sys2Proof.Proofs

open Sys2Proof.Machine Sys2Proof.Statements

/-- Settles O19: a symbol is the shift-in of R94 on numbers; a pad and an invalid character have their one effect. -/
theorem pushedSymbolInGenericMode : Obligations.PushedSymbolInGenericMode := by
  unfold Obligations.PushedSymbolInGenericMode
  refine ⟨?sym, ?pad, ?invalid⟩
  case sym =>
    intro ch v hc
    rw [exec_b32Push, hc]
    exact pushClass_pushesGenericSymbol v
  case pad =>
    intro ch s hc hp hm he
    rw [exec_b32Push, hc, pushClass_of_generic hp he hm]; rfl
  case invalid =>
    intro ch s hc hp hm he
    rw [exec_b32Push, hc, pushClass_of_generic hp he hm]; rfl

/-- Settles O20: a symbol before the 17th is the shift-in of R94 with its byte written to `KEY`; all else is `InvalidSecret`. -/
theorem pushedSymbolInSecretMode : Obligations.PushedSymbolInSecretMode := by
  unfold Obligations.PushedSymbolInSecretMode
  constructor
  · intro ch v hc
    rw [exec_b32Push, hc]
    exact pushClass_pushesSecretSymbol v
  · intro ch s hc hp hm he
    rw [exec_b32Push, pushClass_of_secret hp he hm]
    rcases hc with hc | hc <;> rw [hc] <;> rfl

/-- Settles O18, phase by phase. -/
theorem b32StartOpensTransaction : Obligations.B32StartOpensTransaction := by
  unfold Obligations.B32StartOpensTransaction
  refine ⟨decodeCmd_code1, ?accepted, ?dropped⟩
  case accepted =>
    intro s hp
    exact ⟨exec_b32Start_of_accepted hp .generic, exec_b32Start_of_accepted hp .secret⟩
  case dropped =>
    intro m s hp
    exact exec_b32Start_of_waitHmac hp m

/-- Settles O28: the test of the trailing group decides the error, and only where there is none yet. -/
theorem b32EndGeneric : Obligations.B32EndGeneric := by
  unfold Obligations.B32EndGeneric
  refine ⟨decodeCmd_code3, ?bad, ?good, fun s hp => exec_b32End_of_not_decoding hp⟩
  case bad =>
    intro s hp hm he hg
    rw [exec_b32End_of_decoding hp, endDecode_of_generic hm, endGeneric, if_pos ⟨he, (badTrailingGroup_iff _).2 hg⟩]; rfl
  case good =>
    intro s hp hm h
    have hn : ¬(s.err = 0 ∧ badTrailingGroup s.gpos = true) := by rwa [badTrailingGroup_iff, not_and_or]
    rw [exec_b32End_of_decoding hp, endDecode_of_generic hm, endGeneric, if_neg hn]; rfl

/-- Settles O29: without an earlier error the count of symbols decides between a valid key and `InvalidSecret`. -/
theorem b32EndSecret : Obligations.B32EndSecret := by
  unfold Obligations.B32EndSecret
  refine ⟨?loaded, ?wrongCount, ?earlierError, fun s hp => exec_b32End_of_not_decoding hp⟩
  case loaded =>
    intro s hp hm he hn
    rw [exec_b32End_of_decoding hp, endDecode_of_secret hm, endSecret, if_pos he, if_pos hn, closeDecode, he]; rfl
  case wrongCount =>
    intro s hp hm he hn
    rw [exec_b32End_of_decoding hp, endDecode_of_secret hm, endSecret, if_pos he, if_neg hn]; rfl
  case earlierError =>
    intro s hp hm he
    rw [exec_b32End_of_decoding hp, endDecode_of_secret hm, endSecret, if_neg he]; rfl

end Sys2Proof.Proofs
end

section
/-! SUPPORT. Proof of the statement of 41_counter_packer.md: the bytes of the packed counter (R120). -/

namespace Sys2Proof.Machine

theorem pack64be_getElem (c : Counter) (i : Fin 8) : (pack64be c)[i] = counterByte c i.val := by
  fin_cases i <;> rfl

theorem counterByte_toNat (c : Counter) (i : Nat) : (counterByte c i).toNat = c.toNat / 2 ^ (56 - 8 * i) % 256 := by
  rw [counterByte, BitVec.extractLsb'_toNat, Nat.shiftRight_eq_div_pow]

end Sys2Proof.Machine

namespace Sys2Proof.Proofs

open Sys2Proof.Machine

/-- Settles O31: entry `i` of the packed counter is `counterByte c i`, the slice of R120 and the quotient it spells. -/
theorem counterIsPackedBigEndian : Obligations.CounterIsPackedBigEndian := by
  unfold Obligations.CounterIsPackedBigEndian
  intro c i
  rw [pack64be_getElem]
  exact ⟨rfl, counterByte_toNat c i.val⟩

end Sys2Proof.Proofs
end

section
/-! SUPPORT. Proof of the statement of 42_hmac_sha1_interface.md: what a response does (R140). -/

namespace Sys2Proof.Machine

theorem digits_eq_ofFn (n : BitVec 20) : digits n = Vector.ofFn fun i : Fin 6 => digit n i.val := rfl

/-- A response of the digest's length stores the code whatever the state is. -/
theorem takeResponse_of_len_eq (d : Digest) : takeResponse 20 d = storeCode d := rfl

theorem exec_hmacResp_of_waitHmac {s : State} (hp : s.phase = .waitHmac) (len : Byte) (d : Digest) :
    exec (.hmacResp len d) s = .next (takeResponse len d s) := by
  rw [exec_hmacResp, decide_eq_true hp, runIfAccepted_true]

theorem exec_hmacResp_of_not_waitHmac {s : State} (hp : s.phase ≠ .waitHmac) (len : Byte) (d : Digest) :
    exec (.hmacResp len d) s = .next (dropWithFault s) := by
  rw [exec_hmacResp, decide_eq_false hp, runIfAccepted_false]

end Sys2Proof.Machine

namespace Sys2Proof.Proofs

open Sys2Proof.Machine

/-- Settles O33: the phase decides whether the response is taken, and its length whether the code is stored. -/
theorem hmacRespEndsTheCall : Obligations.HmacRespEndsTheCall := by
  unfold Obligations.HmacRespEndsTheCall
  refine ⟨?stored, ?otherLen, ?dropped⟩
  case stored =>
    intro d s hp
    rw [exec_hmacResp_of_waitHmac hp, takeResponse_of_len_eq, storeCode, digits_eq_ofFn]; rfl
  case otherLen =>
    intro len d s hp hlen
    rw [exec_hmacResp_of_waitHmac hp, takeResponse_of_len_ne hlen]; rfl
  case dropped =>
    intro len d s hp
    exact exec_hmacResp_of_not_waitHmac hp len d

end Sys2Proof.Proofs
end

section
/-! SUPPORT. Proof of the statement of 43_dynamic_truncator.md: the truncator on numbers (R145 to R148). -/

namespace Sys2Proof.Machine

/-- The four bytes that `be32` shifts into place do not overlap: they stand side by side (43_dynamic_truncator.md R146). -/
theorem be32_eq_append (b0 b1 b2 b3 : Byte) : be32 b0 b1 b2 b3 = b0 ++ b1 ++ b2 ++ b3 := by
  apply BitVec.eq_of_getLsbD_eq
  intro i hi
  simp only [BitVec.getLsbD_append]
  interval_cases i <;> simp [be32]

theorem be32_toNat (b0 b1 b2 b3 : Byte) :
    (be32 b0 b1 b2 b3).toNat = b0.toNat * 2 ^ 24 + b1.toNat * 2 ^ 16 + b2.toNat * 2 ^ 8 + b3.toNat := by
  simp only [be32_eq_append, toNat_append_eq_add]
  omega

theorem truncOffset_eq_mod (d : Digest) : truncOffset d = (digestByte d 19).toNat % 16 := by
  rw [truncOffset, BitVec.toNat_and]
  exact Nat.and_two_pow_sub_one_eq_mod _ 4

/-- Clearing bit 31 keeps the number below it, so the 31 bits of the result lose nothing (43_dynamic_truncator.md R147). -/
theorem truncate_toNat (d : Digest) : (truncate d).toNat = (raw32 d).toNat % 2 ^ 31 := by
  have hmask : (raw32 d &&& 0x7FFFFFFF).toNat = (raw32 d).toNat % 2 ^ 31 := by
    rw [BitVec.toNat_and]
    exact Nat.and_two_pow_sub_one_eq_mod _ 31
  rw [truncate, BitVec.toNat_setWidth, hmask, Nat.mod_mod]

end Sys2Proof.Machine

namespace Sys2Proof.Proofs

open Sys2Proof.Machine

/-- Settles O35: each mask keeps a remainder, and `raw32` is `be32` of the four bytes that the offset selects. -/
theorem truncateReadsTheWindow : Obligations.TruncateReadsTheWindow := by
  unfold Obligations.TruncateReadsTheWindow
  intro d
  exact ⟨truncOffset_eq_mod d, be32_toNat _ _ _ _, truncate_toNat d⟩

end Sys2Proof.Proofs
end

section
/-! SUPPORT. Proof of the statement of 44_decimal_formatter.md: the formatter on numbers (R156, R157). -/

namespace Sys2Proof.Machine

/-- A remainder modulo 10^6 fits 20 bits, so the code loses nothing (44_decimal_formatter.md R156). -/
theorem numericCode_toNat (b : BitVec 31) : (numericCode b).toNat = b.toNat % 1000000 := by
  rw [numericCode, BitVec.toNat_ofNat]
  have hfits : b.toNat % Config.modulus < 2 ^ 20 := (Nat.mod_lt _ (by decide)).trans (by decide)
  exact Nat.mod_eq_of_lt hfits

theorem numericCode_toNat_le (b : BitVec 31) : (numericCode b).toNat ≤ 999999 := by
  rw [numericCode_toNat]
  exact Nat.le_of_lt_succ (Nat.mod_lt _ (by decide))

/-- A remainder modulo 10 fits 4 bits, so the digit loses nothing (44_decimal_formatter.md R157). -/
theorem digit_toNat (n : BitVec 20) (i : Nat) : (digit n i).toNat = n.toNat / 10 ^ (5 - i) % 10 := by
  rw [digit, BitVec.toNat_ofNat]
  have hfits : n.toNat / 10 ^ (5 - i) % 10 < 2 ^ 4 := (Nat.mod_lt _ (by decide)).trans (by decide)
  exact Nat.mod_eq_of_lt hfits

/-- The 4-bit codes 10 to 15 never occur, whatever `n` and `i` are (44_decimal_formatter.md R157, R159). -/
theorem digit_toNat_le (n : BitVec 20) (i : Nat) : (digit n i).toNat ≤ 9 := by
  rw [digit_toNat]
  exact Nat.le_of_lt_succ (Nat.mod_lt _ (by decide))

end Sys2Proof.Machine

namespace Sys2Proof.Proofs

open Sys2Proof.Machine

/-- Settles O38: each remainder fits the width that holds it, and a 31-bit number bounds the quotient. -/
theorem codeIsSixDecimalDigits : Obligations.CodeIsSixDecimalDigits := by
  unfold Obligations.CodeIsSixDecimalDigits
  refine ⟨?code, ?digits⟩
  case code =>
    intro b
    have hb : b.toNat ≤ 2147483647 := Nat.le_of_lt_succ b.isLt
    have hquotient : b.toNat / 1000000 ≤ 2147 := Nat.div_le_div_right hb
    exact ⟨hb, numericCode_toNat b, numericCode_toNat_le b, hquotient⟩
  case digits =>
    intro n _ i _
    exact ⟨digit_toNat n i, digit_toNat_le n i⟩

end Sys2Proof.Proofs
end

section
/-! SUPPORT. Proofs of the statements of 45_token_engine.md: `NOP` (R170) and `HOTP` (R171). -/

namespace Sys2Proof.Machine

theorem exec_nop (s : State) : exec .nop s = .next s := rfl

theorem exec_hotp (c : Counter) (s : State) :
    exec (.hotp c) s = runIfAccepted (s.phase = .idle) (startCall c) s := rfl

theorem exec_hotp_of_idle {s : State} (hp : s.phase = .idle) (c : Counter) :
    exec (.hotp c) s = .next (startCall c s) := by
  rw [exec_hotp, decide_eq_true hp, runIfAccepted_true]

theorem exec_hotp_of_not_idle {s : State} (hp : s.phase ≠ .idle) (c : Counter) :
    exec (.hotp c) s = .next (dropWithFault s) := by
  rw [exec_hotp, decide_eq_false hp, runIfAccepted_false]

theorem startCall_of_keyValid {s : State} (hk : s.keyValid = true) (c : Counter) :
    startCall c s = requestHmac c s := if_pos hk

theorem startCall_of_not_keyValid {s : State} (hk : s.keyValid = false) (c : Counter) :
    startCall c s = emit (.codeDone 4) (raise .keyDecodeFailure { s with codeValid := false }) :=
  if_neg (Bool.eq_false_iff.mp hk)

end Sys2Proof.Machine

namespace Sys2Proof.Proofs

open Sys2Proof.Machine

/-- Settles O17: code 0 of the code table is `NOP`, whose meaning is the state itself. -/
theorem nopChangesNothing : Obligations.NopChangesNothing := by
  unfold Obligations.NopChangesNothing
  exact ⟨decodeCmd_code0, exec_nop⟩

/-- Settles O30: the phase decides whether the call is accepted, and `KEY_VALID` whether it makes the request. -/
theorem hotpRequestsOrFails : Obligations.HotpRequestsOrFails := by
  unfold Obligations.HotpRequestsOrFails
  refine ⟨decodeCmd_code4, ?request, ?noKey, ?dropped⟩
  case request =>
    intro c s hp hk
    rw [exec_hotp_of_idle hp, startCall_of_keyValid hk]; rfl
  case noKey =>
    intro c s hp hk
    rw [exec_hotp_of_idle hp, startCall_of_not_keyValid hk]; rfl
  case dropped =>
    intro c s hp
    exact exec_hotp_of_not_idle hp c

end Sys2Proof.Proofs
end

section
/-! SUPPORT. Proof of the statement of 70_reset_and_hazards.md: a step with `rst = 1` (R220). -/

namespace Sys2Proof.Machine

theorem slotTransaction_of_rst {p : PortSlot} (hr : p.rst = true) : slotTransaction p = .reset := if_pos hr

theorem step_of_rst {s : State} {p : PortSlot} {rest : List PortSlot} (hi : s.inputs = p :: rest) (hr : p.rst = true) :
    step s = .next (applyReset (takeInput s)) := by
  rw [step_eq, hi, nextTransaction_cons, slotTransaction_of_rst hr, runPresented_reset]

theorem newEvents_of_events_eq {s t : State} (h : t.events = s.events) : newEvents s t = [] := by
  rw [newEvents, h, List.drop_length]

/-! ### The output ports after a reset -/

theorem statusWord_applyReset (s : State) : statusWord (applyReset s) = 0 :=
  calc statusWord (applyReset s) = statusWord State.reset := rfl
    _ = 0 := by decide

theorem codeBcdPort_applyReset (s : State) : codeBcdPort (applyReset s) = 0 := rfl

theorem codeBinPort_applyReset (s : State) : codeBinPort (applyReset s) = 0 := rfl

theorem applyReset_phase_ne_waitHmac (s : State) : (applyReset s).phase ≠ .waitHmac := Phase.noConfusion

end Sys2Proof.Machine

namespace Sys2Proof.Proofs

open Sys2Proof.Machine

/-- Settles O2: the step is `applyReset`, whatever else the slot carries; it leaves only the model's two lists, which are no registers. -/
theorem resetInputBeatsCommandAndResponse : Obligations.ResetInputBeatsCommandAndResponse := by
  unfold Obligations.ResetInputBeatsCommandAndResponse
  intro s p rest hi hr
  have hphase := applyReset_phase_ne_waitHmac (takeInput s)
  refine ⟨applyReset (takeInput s), step_of_rst hi hr, ?registers, ?events, ?newEvents, statusWord_applyReset _,
    codeBcdPort_applyReset _, codeBinPort_applyReset _, hmacKeyPort_of_not_waitHmac hphase,
    hmacMsgPort_of_not_waitHmac hphase⟩
  case registers => rfl
  case events => rfl
  case newEvents => exact newEvents_of_events_eq rfl

end Sys2Proof.Proofs
end

section
/-! SUPPORT. Proofs of the statements of 30_encoding.md over whole words: encoding and decoding undo each other (R60, R64, R66, R69), and
a row of format SYM is the push of its characters (R65). -/

namespace Sys2Proof

open Sys2Proof.Machine Sys2Proof.Safety

/-! ### A row of the alphabet table and the characters it matches -/

/-- The row's term stands for every character the row matches: it encodes to it, is well formed, names the row, and pushes its class. -/
def SymRow.Sound (r : SymRow) : Prop :=
  ∀ ch : Byte, ch &&& r.mask = r.pattern →
    encode (r.build (ch.getLsbD 5)) = .sym ch ∧ (r.build (ch.getLsbD 5)).wf = true ∧
      (r.build (ch.getLsbD 5)).tableRow = .sym r.mask r.pattern ∧
      pushedClass (r.build (ch.getLsbD 5)) = some (classify ch)

/-- A character is its upper case with its own case bit (R67, R69). -/
theorem letterByte_masked (ch : Byte) : letterByte (ch &&& 0xDF) (ch.getLsbD 5) = ch := by
  apply BitVec.eq_of_getLsbD_eq
  intro i hi
  interval_cases i <;> cases ch.getLsbD 5 <;> simp [letterByte]

theorem letterRow_sound {upper : Byte} {build : Bool → Instr}
    (h : ∀ l, encode (build l) = .sym (letterByte upper l) ∧ (build l).wf = true ∧ (build l).tableRow = .sym 0xDF upper ∧
      pushedClass (build l) = some (classify (letterByte upper l))) :
    (letterRow upper build).Sound := by
  intro ch hm
  have hupper : ch &&& 0xDF = upper := hm
  have hch : letterByte upper (ch.getLsbD 5) = ch := by rw [← hupper, letterByte_masked]
  obtain ⟨hencode, hwf, hrow, hclass⟩ := h (ch.getLsbD 5)
  rw [hch] at hencode hclass
  exact ⟨hencode, hwf, hrow, hclass⟩

theorem byteRow_sound {byte : Byte} {i : Instr}
    (h : encode i = .sym byte ∧ i.wf = true ∧ i.tableRow = .sym 0xFF byte ∧ pushedClass i = some (classify byte)) :
    (byteRow byte i).Sound := by
  intro ch hm
  have hch : ch = byte := BitVec.and_allOnes.symm.trans hm
  subst hch
  exact h

theorem letterRows_sound : ∀ r ∈ letterRows, r.Sound := by
  simp only [letterRows, List.cons_append, List.nil_append, List.forall_mem_cons]
  refine ⟨?_, ?_, ?_, ?_, ?_, ?_, ?_, ?_, ?_, ?_, ?_, ?_, ?_, ?_, ?_, ?_, ?_, ?_, ?_, ?_, ?_, ?_, ?_, ?_, ?_, ?_,
    List.forall_mem_nil _⟩ <;> exact letterRow_sound (by decide)

theorem byteRows_sound : ∀ r ∈ byteRows, r.Sound := by
  simp only [byteRows, List.forall_mem_cons]
  refine ⟨?_, ?_, ?_, ?_, ?_, ?_, ?_, List.forall_mem_nil _⟩ <;> exact byteRow_sound (by decide)

theorem symRows_sound {r : SymRow} (hr : r ∈ letterRows ++ byteRows) : r.Sound :=
  (List.mem_append.1 hr).elim (letterRows_sound r) (byteRows_sound r)

/-- The 33 rows with a pattern take exactly the 59 bytes that the row `INVALID` leaves them (R69). -/
theorem any_symRow_matches (ch : Byte) :
    (letterRows ++ byteRows).any (fun r => ch &&& r.mask == r.pattern) = !isInvalidByte ch := by
  revert ch; decide

/-- The bytes of the row `INVALID`, counted (R69). -/
theorem invalidByte_count : ((List.range 256).filter fun n => isInvalidByte (BitVec.ofNat 8 n)).length = 197 := by rfl

/-! ### The alphabet table as a decoder -/

theorem decodeSym_of_isInvalidByte {ch : Byte} (h : isInvalidByte ch = true) : decodeSym ch = .invalid ch := by
  have hnone : (letterRows ++ byteRows).find? (fun r => ch &&& r.mask == r.pattern) = none := by
    rw [List.find?_eq_none, ← List.any_eq_false, any_symRow_matches, h, Bool.not_true]
  rw [decodeSym, hnone]

theorem decodeSym_of_valid {ch : Byte} (h : isInvalidByte ch = false) :
    ∃ r ∈ letterRows ++ byteRows, ch &&& r.mask = r.pattern ∧ decodeSym ch = r.build (ch.getLsbD 5) := by
  have hsome : ((letterRows ++ byteRows).find? fun r => ch &&& r.mask == r.pattern).isSome = true := by
    rw [List.find?_isSome, ← List.any_eq_true, any_symRow_matches, h, Bool.not_false]
  obtain ⟨r, hr⟩ := Option.isSome_iff_exists.1 hsome
  exact ⟨r, List.mem_of_find?_eq_some hr, by simpa using List.find?_some hr, by rw [decodeSym, hr]⟩

/-- What the term that the alphabet table gives for a character has to do with the character. -/
theorem decodeSym_spec (ch : Byte) :
    encode (decodeSym ch) = .sym ch ∧ (decodeSym ch).wf = true ∧
      (decodeSym ch).tableRow.matchesWord (.sym ch) = true ∧ pushedClass (decodeSym ch) = some (classify ch) := by
  cases h : isInvalidByte ch with
  | true =>
    rw [decodeSym_of_isInvalidByte h]
    exact ⟨rfl, h, by simp [Instr.tableRow, TableRow.matchesWord],
      by rw [pushedClass, (classify_eq_invalid_iff ch).2 h]⟩
  | false =>
    obtain ⟨r, hr, hm, hd⟩ := decodeSym_of_valid h
    obtain ⟨hencode, hwf, hrow, hclass⟩ := symRows_sound hr ch hm
    rw [hd]
    exact ⟨hencode, hwf, by rw [hrow, TableRow.matchesWord, hm, beq_self_eq_true], hclass⟩

/-! ### The command table and the response as decoders -/

theorem modeOperand_modeArg (m : Mode) : modeOperand (modeArg m) = m := by
  cases m <;> rfl

theorem decodeResp_respWord (len : Byte) (d : Digest) : decodeResp (respWord len d) = .hmacResp len d := by
  rw [decodeResp, respLenField_respWord, respDigestField_respWord]

theorem decode_encode {i : Instr} (h : i.wf = true) : decode (encode i) = i := by
  cases i with
  | nop => exact decodeCmd_code0 0
  | b32Start m => exact (decodeCmd_code1 _).trans (by rw [modeOperand_modeArg])
  | b32Push ch => exact (decodeCmd_code2 _).trans (by rw [charOperand_setWidth])
  | b32End => exact decodeCmd_code3 0
  | hotp c => exact decodeCmd_code4 c
  | reserved5 => exact decodeCmd_code5 0
  | reserved6 => exact decodeCmd_code6 0
  | reserved7 => exact decodeCmd_code7 0
  | hmacResp len d => exact decodeResp_respWord len d
  | symA l | symB l | symC l | symD l | symE l | symF l | symG l | symH l | symI l | symJ l | symK l | symL l | symM l
  | symN l | symO l | symP l | symQ l | symR l | symS l | symT l | symU l | symV l | symW l | symX l | symY l | symZ l =>
    cases l <;> rfl
  | sym2 | sym3 | sym4 | sym5 | sym6 | sym7 | pad => rfl
  | invalid ch => exact decodeSym_of_isInvalidByte h

/-- What the term that the command table gives for a word has to do with the word. -/
theorem decodeCmd_cmdWord_spec (op : BitVec 3) (arg : BitVec 64) :
    (decodeCmd (cmdWord op arg)).wf = true ∧ (decodeCmd (cmdWord op arg)).tableRow = cmdRow op := by
  rcases cmdCode_cases op with rfl | rfl | rfl | rfl | rfl | rfl | rfl | rfl
  · rw [decodeCmd_code0]; exact ⟨rfl, rfl⟩
  · rw [decodeCmd_code1]; exact ⟨rfl, rfl⟩
  · rw [decodeCmd_code2]; exact ⟨rfl, rfl⟩
  · rw [decodeCmd_code3]; exact ⟨rfl, rfl⟩
  · rw [decodeCmd_code4]; exact ⟨rfl, rfl⟩
  · rw [decodeCmd_code5]; exact ⟨rfl, rfl⟩
  · rw [decodeCmd_code6]; exact ⟨rfl, rfl⟩
  · rw [decodeCmd_code7]; exact ⟨rfl, rfl⟩

theorem decode_spec (tw : TableWord) : (decode tw).wf = true ∧ (decode tw).tableRow.matchesWord tw = true := by
  cases tw with
  | cmd w =>
    obtain ⟨hwf, hrow⟩ := decodeCmd_cmdWord_spec (cmdOpField w) (cmdArgField w)
    have hmatch := Laws.TableRow.cmdRow_matches (cmdOpField w) (cmdArgField w)
    rw [← hrow, cmdWord_fields] at hmatch
    rw [cmdWord_fields] at hwf
    exact ⟨hwf, hmatch⟩
  | resp w => exact ⟨rfl, by simp [decode, decodeResp, Instr.tableRow, TableRow.matchesWord]⟩
  | sym ch =>
    obtain ⟨-, hwf, hmatch, -⟩ := decodeSym_spec ch
    exact ⟨hwf, hmatch⟩

theorem encode_decodeResp (w : RespWord) : encode (decodeResp w) = .resp w := by
  rw [decodeResp, encode, respWord_fields]

/-! ### The push of a character and the row of the character -/

theorem exec_b32Push_eq_exec_decodeSym (ch : Byte) (s : State) : exec (.b32Push ch) s = exec (decodeSym ch) s := by
  obtain ⟨-, -, -, hclass⟩ := decodeSym_spec ch
  rw [exec_b32Push, exec_of_pushedClass hclass]

/-! ### A word of the opcode table on the ports -/

namespace Machine

theorem step_commandSlot (op : BitVec 3) (arg : BitVec 64) (s : State) (rest : List PortSlot) :
    step { s with inputs := commandSlot op arg :: rest } = exec (decodeCmd (cmdWord op arg)) { s with inputs := rest } := rfl

theorem step_responseSlot (len : Byte) (d : Digest) (s : State) (rest : List PortSlot) :
    step { s with inputs := responseSlot len d :: rest } = exec (decodeResp (respWord len d)) { s with inputs := rest } := rfl

/-- A word put on the ports is decoded and run; a character travels as the operand of `B32_PUSH` (R65). -/
theorem step_slotOfWord (tw : TableWord) (s : State) :
    step { s with inputs := slotOfWord tw :: s.inputs } = exec (decode tw) s := by
  cases tw with
  | cmd w => rw [slotOfWord, step_commandSlot, cmdWord_fields, decode]
  | resp w => rw [slotOfWord, step_responseSlot, respWord_fields, decode]
  | sym ch =>
    rw [slotOfWord, step_commandSlot, decodeCmd_code2, charOperand_setWidth, decode, ← exec_b32Push_eq_exec_decodeSym]

theorem decodeTableWord_eq_some {nbits w : Nat} {i : Instr} (h : decodeTableWord nbits w = some i) :
    ∃ tw, wordOfBits nbits w = .ok tw ∧ decode tw = i := by
  rw [decodeTableWord, decodeBits] at h
  cases hw : wordOfBits nbits w with
  | ok tw => rw [hw] at h; exact ⟨tw, rfl, Option.some.inj h⟩
  | error e => rw [hw] at h; cases h

theorem withFetchWord_of_ok {nbits w : Nat} {tw : TableWord} (h : wordOfBits nbits w = .ok tw) (s : State) :
    s.withFetchWord nbits w = { s with inputs := slotOfWord tw :: s.inputs } := by
  rw [State.withFetchWord, presentTableWord, h]

end Machine

end Sys2Proof

namespace Sys2Proof.Proofs

open Sys2Proof.Machine

/-- Settles O11: the codes and fields of a command and of a response are read back, and a character finds its own row again. -/
theorem decodeOfEncodeIsTheInstruction : Obligations.DecodeOfEncodeIsTheInstruction := by
  unfold Obligations.DecodeOfEncodeIsTheInstruction
  intro i h
  exact decode_encode h

/-- Settles O12: the code decides the row of a command, a response is its two fields, and each row of the alphabet table is sound. -/
theorem everyWordDecodesWellFormed : Obligations.EveryWordDecodesWellFormed := by
  unfold Obligations.EveryWordDecodesWellFormed
  exact ⟨decode_spec, fun ch => (decodeSym_spec ch).1, encode_decodeResp, invalidByte_count⟩

/-- Settles O25: the row that the alphabet table gives for a character pushes the character's class. -/
theorem pushRunsTheRowOfItsCharacter : Obligations.PushRunsTheRowOfItsCharacter := by
  unfold Obligations.PushRunsTheRowOfItsCharacter
  intro ch s
  exact exec_b32Push_eq_exec_decodeSym ch s

/-- Settles O7: the slot of the word that the number stands for is the next one taken. -/
theorem tableWordPresentedIsRun : Obligations.TableWordPresentedIsRun := by
  unfold Obligations.TableWordPresentedIsRun
  intro s nbits w i h
  obtain ⟨tw, hw, rfl⟩ := decodeTableWord_eq_some h
  rw [withFetchWord_of_ok hw, step_slotOfWord]

/-- Settles O10: each word is a number of the table's length, and decoding it is a finite computation. -/
theorem sampleWordsDecodeToTheirInstructions : Obligations.SampleWordsDecodeToTheirInstructions := by
  unfold Obligations.SampleWordsDecodeToTheirInstructions
  decide

end Sys2Proof.Proofs
end

section
/-! SUPPORT. Every way one transaction can end, as one inductive relation with a named case each. It takes `exec_cases` and the lemmas of
Laws/Ops.lean together, so that a proof about all transactions is a case split on it. -/

namespace Sys2Proof.Machine

open Sys2Proof.Safety

/-- `Transition i s t`: the transaction `i`, executed in `s`, ends in `t`. -/
inductive Transition (i : Instr) (s : State) : State → Prop where
  /-- The phase does not accept it. -/
  | dropped (ha : accepts s.phase i = false) : Transition i s (dropWithFault s)
  | nop (hi : i = .nop) : Transition i s s
  /-- A character after the first error. -/
  | pushAfterError {c : CharClass} (hi : pushedClass i = some c) (hp : s.phase = .decoding) (he : s.err ≠ 0) :
      Transition i s s
  /-- A pad in a generic transaction. -/
  | padSkipped (hi : pushedClass i = some .pad) (hp : s.phase = .decoding) (hm : s.mode = .generic) (he : s.err = 0) :
      Transition i s s
  /-- A character that is no symbol, or the 17th symbol, in a secret transaction. -/
  | secretRefused {c : CharClass} (hi : pushedClass i = some c) (hp : s.phase = .decoding) (hm : s.mode = .secret)
      (he : s.err = 0) (hc : ∀ v, c = .sym v → s.nsym = 16) : Transition i s (raise .invalidSecret s)
  | characterRefused (hi : pushedClass i = some .invalid) (hp : s.phase = .decoding) (hm : s.mode = .generic)
      (he : s.err = 0) : Transition i s (raise .invalidCharacter s)
  | secretSymbol {v : SymVal} (hi : pushedClass i = some (.sym v)) (hp : s.phase = .decoding) (hm : s.mode = .secret)
      (he : s.err = 0) (hn : s.nsym ≠ 16) (hb : completedByte s.acc s.nbits v = none) :
      Transition i s { acceptSymbol v s with nsym := s.nsym + 1 }
  | secretSymbolByte {v : SymVal} {b : Byte} (hi : pushedClass i = some (.sym v)) (hp : s.phase = .decoding)
      (hm : s.mode = .secret) (he : s.err = 0) (hn : s.nsym ≠ 16) (hb : completedByte s.acc s.nbits v = some b) :
      Transition i s (writeKeyByte b { acceptSymbol v s with nsym := s.nsym + 1 })
  | genericSymbol {v : SymVal} (hi : pushedClass i = some (.sym v)) (hp : s.phase = .decoding) (hm : s.mode = .generic)
      (he : s.err = 0) (hb : completedByte s.acc s.nbits v = none) : Transition i s (acceptSymbol v s)
  | genericSymbolByte {v : SymVal} {b : Byte} (hi : pushedClass i = some (.sym v)) (hp : s.phase = .decoding)
      (hm : s.mode = .generic) (he : s.err = 0) (hb : completedByte s.acc s.nbits v = some b) :
      Transition i s (emit (.decByte b) (acceptSymbol v s))
  | started (m : Mode) (hi : i = .b32Start m) (hp : s.phase ≠ .waitHmac) : Transition i s (startDecode m s)
  | endedBadGroup (hi : i = .b32End) (hp : s.phase = .decoding) (hm : s.mode = .generic) (he : s.err = 0)
      (hg : badTrailingGroup s.gpos = true) : Transition i s (closeDecode (raise .invalidPadding s))
  | endedLoaded (hi : i = .b32End) (hp : s.phase = .decoding) (hm : s.mode = .secret) (he : s.err = 0)
      (hn : s.nsym = 16) : Transition i s (closeDecode { s with keyValid := true })
  | endedShort (hi : i = .b32End) (hp : s.phase = .decoding) (hm : s.mode = .secret) (he : s.err = 0)
      (hn : s.nsym ≠ 16) : Transition i s (closeDecode (raise .invalidSecret s))
  /-- `B32_END` that changes no register but `PHASE`. -/
  | ended (hi : i = .b32End) (hp : s.phase = .decoding) (hs : s.mode = .secret → s.err ≠ 0) :
      Transition i s (closeDecode s)
  | requested (c : Counter) (hi : i = .hotp c) (hp : s.phase = .idle) (hk : s.keyValid = true) :
      Transition i s (requestHmac c s)
  | keyMissing (c : Counter) (hi : i = .hotp c) (hp : s.phase = .idle) (hk : s.keyValid = false) :
      Transition i s (emit (.codeDone 4) (raise .keyDecodeFailure { s with codeValid := false }))
  | stored (d : Digest) (hi : i = .hmacResp 20 d) (hp : s.phase = .waitHmac) : Transition i s (storeCode d s)
  | violated (len : Byte) (d : Digest) (hi : i = .hmacResp len d) (hl : len ≠ 20) (hp : s.phase = .waitHmac) :
      Transition i s (emit (.codeDone 6) (raise .contractViolation { s with phase := .idle }))

section

variable {i : Instr} {s : State}

theorem pushSecret_transition {c : CharClass} (hi : pushedClass i = some c) (hp : s.phase = .decoding)
    (hm : s.mode = .secret) (he : s.err = 0) : Transition i s (pushSecret c s) := by
  cases c with
  | pad => exact .secretRefused hi hp hm he (fun _ h => CharClass.noConfusion h)
  | invalid => exact .secretRefused hi hp hm he (fun _ h => CharClass.noConfusion h)
  | sym v =>
    by_cases hn : s.nsym = 16
    · rw [pushSecret, if_pos hn]
      exact .secretRefused hi hp hm he (fun _ _ => hn)
    · rw [pushSecret, if_neg hn, takeSecretSymbol]
      cases hb : completedByte s.acc s.nbits v with
      | none => exact .secretSymbol hi hp hm he hn hb
      | some b => exact .secretSymbolByte hi hp hm he hn hb

theorem pushGeneric_transition {c : CharClass} (hi : pushedClass i = some c) (hp : s.phase = .decoding)
    (hm : s.mode = .generic) (he : s.err = 0) : Transition i s (pushGeneric c s) := by
  rcases pushGeneric_cases c s with ⟨rfl, ht⟩ | ⟨rfl, ht⟩ | ⟨v, rfl, ⟨hb, ht⟩ | ⟨b, hb, ht⟩⟩ <;> rw [ht]
  · exact .padSkipped hi hp hm he
  · exact .characterRefused hi hp hm he
  · exact .genericSymbol hi hp hm he hb
  · exact .genericSymbolByte hi hp hm he hb

theorem endDecode_transition (hi : i = .b32End) (hp : s.phase = .decoding) : Transition i s (endDecode s) := by
  rcases endDecode_cases s with ⟨hm, he, hg, ht⟩ | ⟨hm, -, ht⟩ | ⟨hm, he, hn, ht⟩ | ⟨hm, he, hn, ht⟩ | ⟨hm, he, ht⟩ <;>
    rw [ht]
  · exact .endedBadGroup hi hp hm he hg
  · exact .ended hi hp (fun h => by rw [hm] at h; cases h)
  · exact .endedLoaded hi hp hm he hn
  · exact .endedShort hi hp hm he hn
  · exact .ended hi hp (fun _ => he)

theorem startCall_transition (c : Counter) (hi : i = .hotp c) (hp : s.phase = .idle) :
    Transition i s (startCall c s) := by
  rcases startCall_cases c s with ⟨hk, ht⟩ | ⟨hk, ht⟩ <;> rw [ht]
  · exact .requested c hi hp hk
  · exact .keyMissing c hi hp hk

theorem takeResponse_transition (len : Byte) (d : Digest) (hi : i = .hmacResp len d) (hp : s.phase = .waitHmac) :
    Transition i s (takeResponse len d s) := by
  rcases takeResponse_cases len d s with ⟨rfl, ht⟩ | ⟨hl, ht⟩ <;> rw [ht]
  · exact .stored d hi hp
  · exact .violated len d hi hl hp

theorem exec_transition {t : State} (h : exec i s = .next t) : Transition i s t := by
  rcases exec_cases h with ⟨ha, rfl⟩ | ⟨-, hrun⟩
  · exact .dropped ha
  rcases hrun with ⟨hi, rfl⟩ | ⟨c, hi, hp, hpush⟩ | ⟨m, hi, hp, rfl⟩ | ⟨hi, hp, rfl⟩ | ⟨c, hi, hp, rfl⟩ | ⟨len, d, hi, hp, rfl⟩
  · exact .nop hi
  · rcases hpush with ⟨he, rfl⟩ | ⟨he, hm, rfl⟩ | ⟨he, hm, rfl⟩
    · exact .pushAfterError hi hp he
    · exact pushSecret_transition hi hp hm he
    · exact pushGeneric_transition hi hp hm he
  · exact .started m hi hp
  · exact endDecode_transition hi hp
  · exact startCall_transition c hi hp
  · exact takeResponse_transition len d hi hp

end

/-! ### The registers after `B32_START` -/

@[simp] theorem startDecode_phase (m : Mode) (s : State) : (startDecode m s).phase = .decoding := by cases m <;> rfl
@[simp] theorem startDecode_mode (m : Mode) (s : State) : (startDecode m s).mode = m := by cases m <;> rfl
@[simp] theorem startDecode_msg (m : Mode) (s : State) : (startDecode m s).msg = s.msg := by cases m <;> rfl
@[simp] theorem startDecode_codeD (m : Mode) (s : State) : (startDecode m s).codeD = s.codeD := by cases m <;> rfl
@[simp] theorem startDecode_codeBin (m : Mode) (s : State) : (startDecode m s).codeBin = s.codeBin := by cases m <;> rfl
@[simp] theorem startDecode_codeValid (m : Mode) (s : State) : (startDecode m s).codeValid = s.codeValid := by
  cases m <;> rfl
@[simp] theorem startDecode_err (m : Mode) (s : State) : (startDecode m s).err = 0 := by cases m <;> rfl
@[simp] theorem startDecode_fault (m : Mode) (s : State) : (startDecode m s).fault = s.fault := by cases m <;> rfl
@[simp] theorem startDecode_inputs (m : Mode) (s : State) : (startDecode m s).inputs = s.inputs := by cases m <;> rfl
@[simp] theorem startDecode_events (m : Mode) (s : State) : (startDecode m s).events = s.events := by cases m <;> rfl
@[simp] theorem startDecode_acc (m : Mode) (s : State) : (startDecode m s).acc = 0 := by cases m <;> rfl
@[simp] theorem startDecode_nbits (m : Mode) (s : State) : (startDecode m s).nbits = 0 := by cases m <;> rfl
@[simp] theorem startDecode_gpos (m : Mode) (s : State) : (startDecode m s).gpos = 0 := by cases m <;> rfl
@[simp] theorem startDecode_nsym (m : Mode) (s : State) : (startDecode m s).nsym = 0 := by cases m <;> rfl
@[simp] theorem startDecode_nbytes (m : Mode) (s : State) : (startDecode m s).nbytes = 0 := by cases m <;> rfl

@[simp] theorem startDecode_generic_key (s : State) : (startDecode .generic s).key = s.key := rfl
@[simp] theorem startDecode_generic_keyValid (s : State) : (startDecode .generic s).keyValid = s.keyValid := rfl
@[simp] theorem startDecode_secret_key (s : State) : (startDecode .secret s).key = Vector.replicate 10 0 := rfl
@[simp] theorem startDecode_secret_keyValid (s : State) : (startDecode .secret s).keyValid = false := rfl

/-! ### The ports -/

/-- The ports belong to the outside: no transaction touches them. -/
theorem Transition.inputs_eq {i : Instr} {s t : State} (h : Transition i s t) : t.inputs = s.inputs := by
  cases h <;> simp

end Sys2Proof.Machine
end

section
/-! SUPPORT. Proofs of the statements about the phase table (45_token_engine.md R178), about `FAULT` (10_state.md R18) and about who reads
`KEY` (60_exceptions.md R204): an accepted transaction is one function of the state, and it reads neither. -/

namespace Sys2Proof.Machine

open Sys2Proof.Safety

/-- What a transaction does in a phase that accepts it. -/
def acceptedRun (i : Instr) (s : State) : State :=
  match pushedClass i, i with
  | some c, _ => pushOpen c s
  | none, .b32Start m => startDecode m s
  | none, .b32End => endDecode s
  | none, .hotp c => startCall c s
  | none, .hmacResp len d => takeResponse len d s
  | none, _ => s

theorem acceptedRun_of_pushedClass {i : Instr} {c : CharClass} (h : pushedClass i = some c) (s : State) :
    acceptedRun i s = pushOpen c s := by
  simp only [acceptedRun, h]

/-- The phase table decides, and what it accepts runs. -/
theorem exec_eq_acceptedRun (i : Instr) (s : State) :
    exec i s = .next (if accepts s.phase i then acceptedRun i s else dropWithFault s) := by
  rcases instr_kinds i with ⟨c, hc⟩ | rfl | ⟨m, rfl⟩ | rfl | ⟨c, rfl⟩ | hr | ⟨len, d, rfl⟩
  · rw [exec_of_pushedClass hc, accepts_of_pushedClass hc, acceptedRun_of_pushedClass hc]; rfl
  · rfl
  · cases hp : s.phase <;> simp [exec, execB32Start, accepts, acceptedRun, pushedClass, hp]
  · rfl
  · rfl
  · rcases hr with rfl | rfl | rfl <;> rfl
  · rfl

theorem exec_of_accepts {i : Instr} {s : State} (h : accepts s.phase i = true) :
    exec i s = .next (acceptedRun i s) := by
  rw [exec_eq_acceptedRun, if_pos h]

theorem exec_of_not_accepts {i : Instr} {s : State} (h : accepts s.phase i = false) :
    exec i s = .next (dropWithFault s) := by
  rw [exec_eq_acceptedRun, if_neg (Bool.eq_false_iff.1 h)]

theorem eq_of_exec_of_accepts {i : Instr} {s t : State} (h : exec i s = .next t) (ha : accepts s.phase i = true) :
    t = acceptedRun i s := by
  rw [exec_of_accepts ha] at h
  exact (Host.Outcome.next.inj h).symm

theorem eq_of_exec_of_not_accepts {i : Instr} {s t : State} (h : exec i s = .next t)
    (ha : accepts s.phase i = false) : t = dropWithFault s := by
  rw [exec_of_not_accepts ha] at h
  exact (Host.Outcome.next.inj h).symm

/-! ### `FAULT` is not read -/

section FaultNotRead

variable (s : State) (f : Bool)

theorem pushOpen_of_fault (c : CharClass) : pushOpen c { s with fault := f } = { pushOpen c s with fault := f } := by
  simp only [pushOpen, pushSecret, pushGeneric, takeSecretSymbol]
  repeat' split
  all_goals rfl

theorem startDecode_of_fault (m : Mode) : startDecode m { s with fault := f } = { startDecode m s with fault := f } := by
  cases m <;> rfl

theorem endDecode_of_fault : endDecode { s with fault := f } = { endDecode s with fault := f } := by
  simp only [endDecode, endGeneric, endSecret]
  repeat' split
  all_goals rfl

theorem startCall_of_fault (c : Counter) : startCall c { s with fault := f } = { startCall c s with fault := f } := by
  simp only [startCall]
  split <;> rfl

theorem takeResponse_of_fault (len : Byte) (d : Digest) :
    takeResponse len d { s with fault := f } = { takeResponse len d s with fault := f } := by
  simp only [takeResponse]
  split <;> rfl

theorem acceptedRun_of_fault (i : Instr) : acceptedRun i { s with fault := f } = { acceptedRun i s with fault := f } := by
  rcases instr_kinds i with ⟨c, hc⟩ | rfl | ⟨m, rfl⟩ | rfl | ⟨c, rfl⟩ | hr | ⟨len, d, rfl⟩
  · rw [acceptedRun_of_pushedClass hc, acceptedRun_of_pushedClass hc, pushOpen_of_fault]
  · rfl
  · exact startDecode_of_fault s f m
  · exact endDecode_of_fault s f
  · exact startCall_of_fault s f c
  · rcases hr with rfl | rfl | rfl <;> rfl
  · exact takeResponse_of_fault s f len d

end FaultNotRead

theorem acceptedRun_fault (i : Instr) (s : State) : (acceptedRun i s).fault = s.fault :=
  (congrArg State.fault (acceptedRun_of_fault s s.fault i) :)

/-! ### The next phase -/

theorem phaseAfter_of_pushedClass {i : Instr} {c : CharClass} (h : pushedClass i = some c) (s : State) :
    phaseAfter s i = s.phase := by
  cases i <;> simp [pushedClass] at h <;> rfl

theorem Transition.phase_eq {i : Instr} {s t : State} (h : Transition i s t) (ha : accepts s.phase i = true) :
    t.phase = phaseAfter s i := by
  cases h with
  | dropped hd => rw [hd] at ha; cases ha
  | nop hi => subst hi; rfl
  | pushAfterError hi | padSkipped hi | secretRefused hi | characterRefused hi | secretSymbol hi
  | secretSymbolByte hi | genericSymbol hi | genericSymbolByte hi => exact (phaseAfter_of_pushedClass hi s).symm
  | started m hi hp => subst hi; exact startDecode_phase m s
  | endedBadGroup hi | endedLoaded hi | endedShort hi | ended hi => subst hi; rfl
  | requested c hi hp hk => subst hi; simp [phaseAfter, hk]
  | keyMissing c hi hp hk => subst hi; simp [phaseAfter, hk, hp]
  | stored d hi => subst hi; rfl
  | violated len d hi => subst hi; rfl

/-! ### `KEY` is read by the request alone -/

/-- Whatever is in `KEY` beforehand, `run` gives the same but for `KEY`. -/
def KeyBlind (run : State → State) : Prop := ∀ (s : State) (k : Key), ∃ k', run { s with key := k } = { run s with key := k' }

theorem takeSecretSymbol_keyBlind (v : SymVal) : KeyBlind (takeSecretSymbol v) := by
  intro s k
  simp only [takeSecretSymbol]
  split <;> exact ⟨_, rfl⟩

theorem pushSecret_keyBlind (c : CharClass) : KeyBlind (pushSecret c) := by
  intro s k
  cases c with
  | sym v =>
    simp only [pushSecret]
    split
    · exact ⟨k, rfl⟩
    · exact takeSecretSymbol_keyBlind v s k
  | pad => exact ⟨k, rfl⟩
  | invalid => exact ⟨k, rfl⟩

theorem pushGeneric_keyBlind (c : CharClass) : KeyBlind (pushGeneric c) := by
  intro s k
  cases c with
  | sym v =>
    simp only [pushGeneric]
    split <;> exact ⟨k, rfl⟩
  | pad => exact ⟨k, rfl⟩
  | invalid => exact ⟨k, rfl⟩

theorem pushOpen_keyBlind (c : CharClass) : KeyBlind (pushOpen c) := by
  intro s k
  simp only [pushOpen]
  split
  · split
    · exact pushSecret_keyBlind c s k
    · exact pushGeneric_keyBlind c s k
  · exact ⟨k, rfl⟩

theorem startDecode_keyBlind (m : Mode) : KeyBlind (startDecode m) := by
  intro s k
  cases m <;> exact ⟨_, rfl⟩

theorem endDecode_keyBlind : KeyBlind endDecode := by
  intro s k
  simp only [endDecode, endGeneric, endSecret]
  repeat' split
  all_goals exact ⟨_, rfl⟩

theorem takeResponse_keyBlind (len : Byte) (d : Digest) : KeyBlind (takeResponse len d) := by
  intro s k
  simp only [takeResponse]
  split <;> exact ⟨_, rfl⟩

/-- An accepted transaction that makes no request does not read `KEY`. -/
theorem acceptedRun_keyBlind {i : Instr} (hi : ∀ c, i ≠ .hotp c) : KeyBlind (acceptedRun i) := by
  rcases instr_kinds i with ⟨c, hc⟩ | rfl | ⟨m, rfl⟩ | rfl | ⟨c, rfl⟩ | hr | ⟨len, d, rfl⟩
  · intro s k
    rw [acceptedRun_of_pushedClass hc, acceptedRun_of_pushedClass hc]
    exact pushOpen_keyBlind c s k
  · exact fun s k => ⟨k, rfl⟩
  · exact startDecode_keyBlind m
  · exact endDecode_keyBlind
  · exact absurd rfl (hi c)
  · rcases hr with rfl | rfl | rfl <;> exact fun s k => ⟨k, rfl⟩
  · exact takeResponse_keyBlind len d

theorem startCall_of_key_of_keyValid {s : State} (hk : s.keyValid = true) (c : Counter) (k : Key) :
    startCall c { s with key := k } =
      { startCall c s with key := k, events := s.events ++ [.hmacReq k (pack64be c)] } := by
  rw [startCall_of_keyValid (s := { s with key := k }) hk, startCall_of_keyValid hk]; rfl

theorem startCall_of_key_of_not_keyValid {s : State} (hk : s.keyValid = false) (c : Counter) (k : Key) :
    startCall c { s with key := k } = { startCall c s with key := k } := by
  rw [startCall_of_not_keyValid (s := { s with key := k }) hk, startCall_of_not_keyValid hk]; rfl

end Sys2Proof.Machine

namespace Sys2Proof.Proofs

open Sys2Proof.Machine Sys2Proof.Safety

/-- Settles O40: what the table accepts keeps `FAULT` and goes to the table's phase, and what it does not is dropped. -/
theorem phaseTableDecidesAcceptanceAndNextPhase : Obligations.PhaseTableDecidesAcceptanceAndNextPhase := by
  unfold Obligations.PhaseTableDecidesAcceptanceAndNextPhase
  intro i s t h
  refine ⟨fun ha => ⟨(exec_transition h).phase_eq ha, ?fault⟩, fun ha => eq_of_exec_of_not_accepts h ha⟩
  case fault => rw [eq_of_exec_of_accepts h ha, acceptedRun_fault]

/-- Settles O41: an accepted transaction does not read `FAULT`, and a dropped one sets it. -/
theorem faultIsStickyAndInert : Obligations.FaultIsStickyAndInert := by
  unfold Obligations.FaultIsStickyAndInert
  intro i s t f h
  cases ha : accepts s.phase i with
  | true =>
    have hfault : t.fault = s.fault := by rw [eq_of_exec_of_accepts h ha, acceptedRun_fault]
    refine ⟨fun hs => hfault.trans hs, ?_⟩
    rw [exec_of_accepts (s := { s with fault := f }) ha, acceptedRun_of_fault, ← eq_of_exec_of_accepts h ha, hfault]
    simp
  | false =>
    obtain rfl := eq_of_exec_of_not_accepts h ha
    refine ⟨fun _ => rfl, ?_⟩
    rw [exec_of_not_accepts (s := { s with fault := f }) ha]
    simp [dropWithFault]

/-- Settles O46: only the event of a request carries `KEY`, and outside `WAIT_HMAC` no port does. -/
theorem keyIsNotReadBack : Obligations.KeyIsNotReadBack := by
  unfold Obligations.KeyIsNotReadBack
  intro i s t k h
  refine ⟨?blind, fun hp => hmacKeyPort_of_not_waitHmac hp⟩
  cases ha : accepts s.phase i with
  | false =>
    obtain rfl := eq_of_exec_of_not_accepts h ha
    exact ⟨k, s.events, exec_of_not_accepts (s := { s with key := k }) ha, .inr rfl⟩
  | true =>
    obtain rfl := eq_of_exec_of_accepts h ha
    have hexec : exec i { s with key := k } = .next (acceptedRun i { s with key := k }) :=
      exec_of_accepts (s := { s with key := k }) ha
    by_cases hi : ∃ c, i = .hotp c
    · obtain ⟨c, rfl⟩ := hi
      have hp : s.phase = .idle := by simpa [accepts] using ha
      rcases Bool.eq_false_or_eq_true s.keyValid with hk | hk
      · exact ⟨k, _, hexec.trans (congrArg _ (startCall_of_key_of_keyValid hk c k)), .inl ⟨c, rfl, hp, hk⟩⟩
      · exact ⟨k, _, hexec.trans (congrArg _ (startCall_of_key_of_not_keyValid hk c k)), .inr rfl⟩
    · obtain ⟨k', hk'⟩ := acceptedRun_keyBlind (fun c hc => hi ⟨c, hc⟩) s k
      exact ⟨k', _, hexec.trans (congrArg _ hk'), .inr rfl⟩

end Sys2Proof.Proofs
end

section
/-! SUPPORT. Proofs of the statements about the datapath: the shift-in (40_base32_decoder.md R94), the counter packer (41 R120), the
truncator (43 R145 to R149), the formatter (44 R157) and the host's division for `TOTP` (45 R176). -/

namespace Sys2Proof.Machine

/-! ### The shift-in on numbers -/

section ShiftIn

variable {acc : BitVec 7} {nbits : BitVec 3} (v : SymVal)

theorem accAfter_toNat_of_byte (h : 3 ≤ nbits.toNat) :
    (accAfter acc nbits v).toNat = (acc.toNat * 32 + v.toNat) % 2 ^ (nbits.toNat - 3) := by
  have hk : nbits.toNat - 3 < 7 := by omega
  have hcount : shiftedCount nbits - 8 = nbits.toNat - 3 := by rw [shiftedCount_eq]; omega
  have hlt : (acc.toNat * 32 + v.toNat) % 2 ^ (nbits.toNat - 3) < 2 ^ 7 :=
    (Nat.mod_lt _ (Nat.two_pow_pos _)).trans (Nat.pow_lt_pow_right (by decide) hk)
  rw [accAfter, if_pos (by rw [shiftedCount_eq]; omega), hcount, BitVec.toNat_setWidth, BitVec.toNat_and,
    shiftedBits_toNat, lowMask_toNat (by omega), Nat.and_two_pow_sub_one_eq_mod, Nat.mod_eq_of_lt hlt]

theorem accAfter_toNat_of_no_byte (h : nbits.toNat < 3) (hacc : acc.toNat < 2 ^ nbits.toNat) :
    (accAfter acc nbits v).toNat = acc.toNat * 32 + v.toNat := by
  have hlt : acc.toNat < 2 ^ 2 := hacc.trans_le (Nat.pow_le_pow_right (by decide) (by omega))
  rw [accAfter, if_neg (by rw [shiftedCount_eq]; omega), BitVec.toNat_setWidth, shiftedBits_toNat,
    Nat.mod_eq_of_lt (by omega)]

/-- The byte that completes is the window without its low bits: with `ACC` in range nothing stands above it. -/
theorem exists_completedByte (h : 3 ≤ nbits.toNat) (hacc : acc.toNat < 2 ^ nbits.toNat) :
    ∃ b, completedByte acc nbits v = some b ∧ b.toNat = (acc.toNat * 32 + v.toNat) / 2 ^ (nbits.toNat - 3) := by
  refine ⟨_, completedByte_some h, ?_⟩
  have hpow : 2 ^ nbits.toNat = 2 ^ (nbits.toNat - 3) * 8 := by
    rw [← Nat.pow_add (m := nbits.toNat - 3) (n := 3), Nat.sub_add_cancel h]
  have hlt : (acc.toNat * 32 + v.toNat) / 2 ^ (nbits.toNat - 3) < 2 ^ 8 := by
    apply Nat.div_lt_of_lt_mul
    omega
  rw [BitVec.extractLsb'_toNat, shiftedBits_toNat, Nat.shiftRight_eq_div_pow, Nat.mod_eq_of_lt hlt]

variable (hacc : acc.toNat < 2 ^ nbits.toNat)

include hacc

theorem accAfter_toNat_lt : (accAfter acc nbits v).toNat < 2 ^ (nbitsAfter nbits).toNat := by
  have hlt := nbits.isLt
  by_cases h : nbits.toNat < 3
  · have hpow : 2 ^ ((nbits.toNat + 5) % 8) = 2 ^ nbits.toNat * 32 := by
      rw [Nat.mod_eq_of_lt (by omega), Nat.pow_add]
    rw [accAfter_toNat_of_no_byte v h hacc, nbitsAfter_toNat, hpow]
    omega
  · have hmod : (nbits.toNat + 5) % 8 = nbits.toNat - 3 := by omega
    rw [accAfter_toNat_of_byte v (by omega), nbitsAfter_toNat, hmod]
    exact Nat.mod_lt _ (Nat.two_pow_pos _)

/-- No byte completes: the window is the new `ACC`. -/
theorem window_eq_of_no_byte (hb : completedByte acc nbits v = none) :
    nbits.toNat < 3 ∧ acc.toNat * 32 + v.toNat = (accAfter acc nbits v).toNat := by
  have h : nbits.toNat < 3 := by
    by_contra h
    rw [completedByte_some (by omega)] at hb
    cases hb
  exact ⟨h, (accAfter_toNat_of_no_byte v h hacc).symm⟩

/-- A byte completes: it is the quotient of the window, and the new `ACC` the remainder. -/
theorem window_eq_of_byte {b : Byte} (hb : completedByte acc nbits v = some b) :
    3 ≤ nbits.toNat ∧
      acc.toNat * 32 + v.toNat = b.toNat * 2 ^ (nbitsAfter nbits).toNat + (accAfter acc nbits v).toNat := by
  have hlt := nbits.isLt
  have h : 3 ≤ nbits.toNat := by
    by_contra h
    rw [completedByte_none (by omega)] at hb
    cases hb
  have hmod : (nbits.toNat + 5) % 8 = nbits.toNat - 3 := by omega
  obtain ⟨b', hb', hval⟩ := exists_completedByte v h hacc
  obtain rfl : b' = b := Option.some.inj (hb'.symm.trans hb)
  exact ⟨h, by rw [accAfter_toNat_of_byte v h, nbitsAfter_toNat, hmod, hval, Nat.div_add_mod']⟩

end ShiftIn

/-! ### The counter packer -/

theorem bytesNumber_pack64be (c : Counter) : bytesNumber (pack64be c).toList = c.toNat := by
  have hc := c.isLt
  simp only [pack64be, bytesNumber, Vector.toList_mk, List.foldl_cons, List.foldl_nil, counterByte_toNat]
  omega

theorem pack64be_injective {c c' : Counter} (h : pack64be c = pack64be c') : c = c' := by
  apply BitVec.eq_of_toNat_eq
  rw [← bytesNumber_pack64be, h, bytesNumber_pack64be]

theorem msgLanes_pack64be (c : Counter) : msgLanes (pack64be c) = c := by
  rw [msgLanes, bytesNumber_pack64be, BitVec.ofNat_toNat, BitVec.setWidth_eq]

theorem pack64be_msgLanes (m : Msg) : pack64be (msgLanes m) = m := by
  apply Vector.ext
  intro i hi
  apply BitVec.eq_of_toNat_eq
  have hpow : 2 ^ (56 - 8 * i) = (2 ^ 8) ^ (8 - 1 - i) := by rw [← pow_mul]; congr 1; omega
  have hbyte : (pack64be (msgLanes m))[i] = counterByte (msgLanes m) i := pack64be_getElem _ ⟨i, hi⟩
  rw [hbyte, counterByte_toNat, msgLanes_toNat, hpow]
  exact lanesNumber_div_pow_mod m ⟨i, hi⟩

/-! ### The truncator -/

theorem digestByte_toNat (d : Digest) (i : Nat) : (digestByte d i).toNat = d.toNat / 2 ^ (8 * (19 - i)) % 256 := by
  rw [digestByte, BitVec.extractLsb'_toNat, Nat.shiftRight_eq_div_pow]

/-- The low nibble of the last byte is the low nibble of the whole number. -/
theorem truncOffset_eq_digest_mod (d : Digest) : truncOffset d = d.toNat % 16 := by
  rw [truncOffset_eq_mod, digestByte_toNat]
  omega

theorem truncOffset_lt (d : Digest) : truncOffset d < 16 := by
  rw [truncOffset_eq_digest_mod]
  exact Nat.mod_lt _ (by decide)

/-- A byte of the window, counted from the window's last byte. -/
theorem digestByte_window_toNat (d : Digest) {j : Nat} (hj : j ≤ 3) :
    (digestByte d (truncOffset d + j)).toNat = d.toNat / 2 ^ (8 * (16 - truncOffset d)) / 256 ^ (3 - j) % 256 := by
  have ho := truncOffset_lt d
  have hexp : 8 * (19 - (truncOffset d + j)) = 8 * (16 - truncOffset d) + 8 * (3 - j) := by omega
  have hbase : 2 ^ (8 * (3 - j)) = 256 ^ (3 - j) := pow_mul 2 8 (3 - j)
  rw [digestByte_toNat, hexp, pow_add, hbase, Nat.div_div_eq_div_mul]

/-- `raw32` is the window as the low 32 bits of the digest shifted down to it. -/
theorem raw32_toNat (d : Digest) : (raw32 d).toNat = d.toNat / 2 ^ (8 * (16 - truncOffset d)) % 2 ^ 32 := by
  have h0 : (digestByte d (truncOffset d)).toNat = _ := digestByte_window_toNat d (j := 0) (by decide)
  rw [raw32, be32_toNat, h0, digestByte_window_toNat d (by decide), digestByte_window_toNat d (by decide),
    digestByte_window_toNat d (by decide)]
  generalize d.toNat / 2 ^ (8 * (16 - truncOffset d)) = q
  omega

/-! ### The formatter -/

theorem codeNumber_digits {n : BitVec 20} (h : n.toNat ≤ 999999) : Safety.codeNumber (digits n) = n.toNat := by
  have hdigit (i : Fin 6) : (digits n)[i] = digit n i.val := by fin_cases i <;> rfl
  have hsum : Safety.codeNumber (digits n) = (digit n 0).toNat * 100000 + (digit n 1).toNat * 10000 +
      (digit n 2).toNat * 1000 + (digit n 3).toNat * 100 + (digit n 4).toNat * 10 + (digit n 5).toNat := rfl
  rw [hsum]
  simp only [digit_toNat]
  omega

end Sys2Proof.Machine

namespace Sys2Proof.Proofs

open Sys2Proof.Machine Sys2Proof.Safety

/-- Settles O26: whether a byte completes is whether `NBITS` is 3 or more; it is the quotient of the window, and `ACC` the remainder. -/
theorem acceptConservesBits : Obligations.AcceptConservesBits := by
  unfold Obligations.AcceptConservesBits
  intro acc nbits v hacc
  refine ⟨nbitsAfter_toNat nbits, accAfter_toNat_lt v hacc, ?noByte, ?byte⟩
  case noByte =>
    intro h
    exact ⟨completedByte_none h, (window_eq_of_no_byte v hacc (completedByte_none h)).2⟩
  case byte =>
    intro h
    exact ⟨_, completedByte_some h, (window_eq_of_byte v hacc (completedByte_some h)).2⟩

/-- Settles O32: the lanes of the message port undo the packing, from both sides. -/
theorem counterPackingIsABijection : Obligations.CounterPackingIsABijection := by
  unfold Obligations.CounterPackingIsABijection
  exact ⟨fun c => (bytesNumber_pack64be c).symm, fun _ _ => pack64be_injective, fun m => ⟨msgLanes m, pack64be_msgLanes m⟩⟩

/-- Settles O36: the window is 32 bits of the shifted digest, and the mask leaves 31 of them. -/
theorem truncateInClosedForm : Obligations.TruncateInClosedForm := by
  unfold Obligations.TruncateInClosedForm
  intro d
  rw [truncate_toNat, raw32_toNat, truncOffset_eq_digest_mod]
  exact Nat.mod_mod_of_dvd _ (by decide)

/-- Settles O37: the two windows start at one place, and modulo 2^31 the first byte counts only modulo 128. -/
theorem truncateIgnoresBytesOutsideTheWindow : Obligations.TruncateIgnoresBytesOutsideTheWindow := by
  unfold Obligations.TruncateIgnoresBytesOutsideTheWindow
  intro d d' hoffset hfirst hrest
  have ho : truncOffset d' = truncOffset d := by rw [truncOffset_eq_mod, truncOffset_eq_mod, hoffset]
  apply BitVec.eq_of_toNat_eq
  rw [truncate_toNat, truncate_toNat, raw32, raw32, ho, ← hrest 1 (by decide) (by decide),
    ← hrest 2 (by decide) (by decide), ← hrest 3 (by decide) (by decide), be32_toNat, be32_toNat]
  omega

/-- Settles O39: the weighted digits give the number back, so equal digits give equal numbers. -/
theorem digitsSpellTheCode : Obligations.DigitsSpellTheCode := by
  unfold Obligations.DigitsSpellTheCode
  refine ⟨fun n hn => (codeNumber_digits hn).symm, ?injective⟩
  case injective =>
    intro n m hn hm h
    apply BitVec.eq_of_toNat_eq
    rw [← codeNumber_digits hn, h, codeNumber_digits hm]

/-- Settles O58: the quotient of a 64-bit number fits 64 bits. -/
theorem totpIsHotpOfTheStep : Obligations.TotpIsHotpOfTheStep := by
  unfold Obligations.TotpIsHotpOfTheStep
  intro t
  have hfits : (BitVec.ofNat 64 (t.toNat / 30)).toNat = t.toNat / 30 := by
    rw [BitVec.toNat_ofNat]
    exact Nat.mod_eq_of_lt ((Nat.div_le_self _ _).trans_lt t.isLt)
  refine ⟨BitVec.ofNat 64 (t.toNat / 30), rfl, hfits, ?_, ?_⟩
  · rw [hfits]; omega
  · rw [hfits]; omega

end Sys2Proof.Proofs
end

section
/-! SUPPORT. Proofs of the statements about what was presented on the ports: a reset, a response, a command or nothing (20_memory.md R43,
R50; 70_reset_and_hazards.md R222). -/

namespace Sys2Proof.Machine

/-! ### A slot without `rst` -/

section Slot

variable {p : PortSlot} (hr : p.rst = false)

include hr

theorem slotTransaction_of_response (hv : p.hmacRespValid = true) :
    slotTransaction p = .response (respWord p.hmacRespLen p.hmacRespDigest) := by
  simp [slotTransaction, slotRespWord, hr, hv]

theorem slotTransaction_of_command (hv : p.hmacRespValid = false) (hc : p.cmdValid = true) :
    slotTransaction p = .command (cmdWord p.cmdOp p.cmdArg) := by
  simp [slotTransaction, slotCmdWord, hr, hv, hc]

theorem slotTransaction_of_quiet (hv : p.hmacRespValid = false) (hc : p.cmdValid = false) :
    slotTransaction p = .nothing := by
  simp [slotTransaction, hr, hv, hc]

theorem slotLeft_of_both (hv : p.hmacRespValid = true) (hc : p.cmdValid = true) :
    slotLeft p = [{ p with hmacRespValid := false }] := by
  simp [slotLeft, hr, hv, hc]

end Slot

theorem slotLeft_of_no_response {p : PortSlot} (hv : p.hmacRespValid = false) : slotLeft p = [] := by
  simp [slotLeft, hv]

theorem slotLeft_of_no_command {p : PortSlot} (hc : p.cmdValid = false) : slotLeft p = [] := by
  simp [slotLeft, hc]

/-! ### The step that takes a slot -/

theorem takeInput_of_cons {s : State} {p : PortSlot} {rest : List PortSlot} (hi : s.inputs = p :: rest) :
    takeInput s = { s with inputs := slotLeft p ++ rest } := by
  rw [takeInput, hi, inputsLeft_cons]

section Step

variable {s : State} {p : PortSlot} {rest : List PortSlot} (hi : s.inputs = p :: rest) (hr : p.rst = false)

include hi

theorem step_of_cons : step s = runPresented (slotTransaction p) { s with inputs := slotLeft p ++ rest } := by
  rw [step_eq, takeInput_of_cons hi, hi, nextTransaction_cons]

include hr

theorem step_of_response (hv : p.hmacRespValid = true) :
    step s = exec (decodeResp (respWord p.hmacRespLen p.hmacRespDigest)) { s with inputs := slotLeft p ++ rest } := by
  rw [step_of_cons hi, slotTransaction_of_response hr hv, runPresented_response]

theorem step_of_command (hv : p.hmacRespValid = false) (hc : p.cmdValid = true) :
    step s = exec (decodeCmd (cmdWord p.cmdOp p.cmdArg)) { s with inputs := rest } := by
  rw [step_of_cons hi, slotTransaction_of_command hr hv hc, slotLeft_of_no_response hv, List.nil_append,
    runPresented_command]

theorem step_of_quiet (hv : p.hmacRespValid = false) (hc : p.cmdValid = false) :
    step s = .next { s with inputs := rest } := by
  rw [step_of_cons hi, slotTransaction_of_quiet hr hv hc, slotLeft_of_no_response hv, List.nil_append,
    runPresented_nothing]

end Step

theorem step_of_nothing {s : State} (hi : s.inputs = []) : step s = .next s := by
  have htake : takeInput s = s := by rw [takeInput, hi, inputsLeft_nil, ← hi]
  rw [step_eq, htake, hi, nextTransaction_nil, runPresented_nothing]

/-- No transaction is refused and none stops the block. -/
theorem exec_total (i : Instr) (s : State) : ∃ t, exec i s = .next t := ⟨_, exec_eq_acceptedRun i s⟩

theorem step_total (s : State) : ∃ t, step s = .next t := by
  rw [step_eq]
  cases nextTransaction s.inputs with
  | nothing => exact ⟨_, runPresented_nothing _⟩
  | reset => exact ⟨_, runPresented_reset _⟩
  | response w => exact exec_total (decodeResp w) _
  | command w => exact exec_total (decodeCmd w) _

theorem run_succ_of_step {M : Host.Core} {s t : M.State} (h : M.step s = .next t) (k : Nat) :
    M.run (k + 1) s = M.run k t := by
  rw [Host.Core.run, h]

theorem run_two_of_steps {s t u : State} (h : step s = .next t) (h' : step t = .next u) : core.run 2 s = .next u :=
  (run_succ_of_step (M := core) h 1).trans (run_succ_of_step (M := core) (s := t) (t := u) h' 0)

end Sys2Proof.Machine

namespace Sys2Proof.Proofs

open Sys2Proof.Machine

/-- Settles O4, by what the slot carries. -/
theorem presentedTransactionIsDecodedAndRun : Obligations.PresentedTransactionIsDecodedAndRun := by
  unfold Obligations.PresentedTransactionIsDecodedAndRun
  intro s p rest hi hr
  refine ⟨?response, ?both, ?command⟩
  case response =>
    intro hv hc
    rw [step_of_response hi hr hv, slotLeft_of_no_command hc, List.nil_append, decode]
  case both =>
    intro hv hc
    rw [step_of_response hi hr hv, slotLeft_of_both hr hv hc, List.singleton_append, decode]
  case command =>
    intro hv hc
    rw [step_of_command hi hr hv hc, decode]

/-- Settles O5: the first step leaves the command in its slot, and no transaction touches the ports. -/
theorem responseRunsBeforeCommand : Obligations.ResponseRunsBeforeCommand := by
  unfold Obligations.ResponseRunsBeforeCommand
  intro s t p rest hi hr hv hc ht
  have hleft : t.inputs = { p with hmacRespValid := false } :: rest := (exec_transition ht).inputs_eq
  constructor
  · rw [step_of_response hi hr hv, slotLeft_of_both hr hv hc, List.singleton_append, decodeResp_respWord, ht]
  · rw [step_of_command hleft hr rfl hc, decode]

/-- Settles O6: an empty list and a quiet slot are both no transaction. -/
theorem nothingPresentedChangesNothing : Obligations.NothingPresentedChangesNothing := by
  unfold Obligations.NothingPresentedChangesNothing
  exact ⟨fun s hi => step_of_nothing hi, fun s p rest hi hr hc hv => step_of_quiet hi hr hv hc⟩

/-- Settles O8: every instruction answers a next state, and so does every step, which runs one or none. -/
theorem everyTransactionIsAccepted : Obligations.EveryTransactionIsAccepted := by
  unfold Obligations.EveryTransactionIsAccepted
  exact ⟨step_total, exec_total⟩

/-- Settles O3: the reset empties the block, and in `IDLE` a response is dropped. -/
theorem lateResponseAfterResetSetsFault : Obligations.LateResponseAfterResetSetsFault := by
  unfold Obligations.LateResponseAfterResetSetsFault
  intro s len d rest hi
  have hreset : step s = .next { State.reset with inputs := responseSlot len d :: rest, events := s.events } := by
    rw [step_of_rst hi rfl, takeInput_of_cons hi]; rfl
  have hresponse : step { State.reset with inputs := responseSlot len d :: rest, events := s.events } =
      .next { State.reset with fault := true, inputs := rest, events := s.events } := by
    rw [step_of_response rfl rfl rfl, decodeResp_respWord, exec_hmacResp_of_not_waitHmac Phase.noConfusion]; rfl
  exact run_two_of_steps hreset hresponse

end Sys2Proof.Proofs
end

section
/-! SUPPORT. Proofs of the statements about who writes which register (10_state.md R12 to R19), what an error leaves behind
(60_exceptions.md R207), and how a code call waits and ends (60_exceptions.md R203, 42_hmac_sha1_interface.md R132): each is a case split on
`Transition`, in which the cases that write the register are named. -/

namespace Sys2Proof.Machine

open Sys2Proof.Safety

theorem secretOpen_iff (s : State) : secretOpen s = true ↔ s.phase = .decoding ∧ s.mode = .secret ∧ s.err = 0 := by
  simp [secretOpen, and_assoc]

theorem not_accepts_hmacResp {s : State} {len : Byte} {d : Digest} (h : accepts s.phase (.hmacResp len d) = false) :
    s.phase ≠ .waitHmac := by
  intro hp
  simp [accepts, hp] at h

namespace Transition

variable {i : Instr} {s t : State} (h : Transition i s t)

include h

/-! ### Who writes the data registers -/

theorem writes_key (hk : t.key ≠ s.key) :
    (i = .b32Start .secret ∧ s.phase ≠ .waitHmac) ∨ ((pushedClass i).isSome = true ∧ secretOpen s = true) := by
  cases h with
  | secretSymbolByte hi hp hm he => exact .inr ⟨by rw [hi]; rfl, (secretOpen_iff s).2 ⟨hp, hm, he⟩⟩
  | started m hi hp =>
    cases m with
    | generic => exact absurd rfl hk
    | secret => exact .inl ⟨hi, hp⟩
  | _ => exact absurd rfl hk

theorem sets_keyValid (ht : t.keyValid = true) (hs : s.keyValid = false) :
    i = .b32End ∧ secretOpen s = true ∧ s.nsym = 16 := by
  cases h with
  | endedLoaded hi hp hm he hn => exact ⟨hi, (secretOpen_iff s).2 ⟨hp, hm, he⟩, hn⟩
  | started m => cases m <;> simp [hs] at ht
  | _ => simp [hs] at ht

theorem clears_keyValid (ht : t.keyValid = false) (hs : s.keyValid = true) :
    i = .b32Start .secret ∧ s.phase ≠ .waitHmac := by
  cases h with
  | started m hi hp =>
    cases m with
    | generic => simp [hs] at ht
    | secret => exact ⟨hi, hp⟩
  | _ => simp [hs] at ht

theorem writes_msg (hm : t.msg ≠ s.msg) :
    ∃ c, i = .hotp c ∧ s.phase = .idle ∧ s.keyValid = true ∧ t.msg = pack64be c := by
  cases h with
  | requested c hi hp hk => exact ⟨c, hi, hp, hk, rfl⟩
  | started m => exact absurd (startDecode_msg m s) hm
  | _ => exact absurd rfl hm

theorem writes_code (hc : t.codeD ≠ s.codeD ∨ t.codeBin ≠ s.codeBin) :
    ∃ d, i = .hmacResp 20 d ∧ s.phase = .waitHmac := by
  cases h with
  | stored d hi hp => exact ⟨d, hi, hp⟩
  | _ => simp at hc

theorem sets_codeValid (ht : t.codeValid = true) (hs : s.codeValid = false) :
    ∃ d, i = .hmacResp 20 d ∧ s.phase = .waitHmac := by
  cases h with
  | stored d hi hp => exact ⟨d, hi, hp⟩
  | _ => simp [hs] at ht

theorem clears_codeValid (ht : t.codeValid = false) (hs : s.codeValid = true) :
    ∃ c, i = .hotp c ∧ s.phase = .idle := by
  cases h with
  | requested c hi hp => exact ⟨c, hi, hp⟩
  | keyMissing c hi hp => exact ⟨c, hi, hp⟩
  | _ => simp [hs] at ht

theorem writes_mode (hm : t.mode ≠ s.mode) : i = .b32Start t.mode ∧ s.phase ≠ .waitHmac := by
  cases h with
  | started m hi hp => exact ⟨by rw [startDecode_mode, hi], hp⟩
  | _ => exact absurd rfl hm

/-! ### What the invariant adds -/

theorem err_stays (hinv : Inv s) (he : s.err ≠ 0) :
    t.err = s.err ∨ (∃ m, i = .b32Start m ∧ t.err = 0) ∨ ∃ c, i = .hotp c ∧ s.phase = .idle := by
  cases h with
  | started m hi => exact .inr (.inl ⟨m, hi, startDecode_err m s⟩)
  | requested c hi hp => exact .inr (.inr ⟨c, hi, hp⟩)
  | keyMissing c hi hp => exact .inr (.inr ⟨c, hi, hp⟩)
  | violated len d hi hl hp => exact absurd (hinv.wait_err hp) he
  | secretRefused _ _ _ he0 | characterRefused _ _ _ he0 | endedBadGroup _ _ _ he0 | endedShort _ _ _ he0 =>
    exact absurd he0 he
  | _ => exact .inl rfl

theorem events_eq (hinv : Inv s) :
    t.events = s.events ∨ ∃ ev, t.events = s.events ++ [ev] ∧ (∀ e, ev = .decDone e → e = t.err) ∧
      (∀ e, ev = .codeDone e → e = t.err) ∧ ∀ k m, ev = .hmacReq k m → k = t.key ∧ m = t.msg := by
  cases h with
  | genericSymbolByte => exact .inr ⟨_, rfl, by simp⟩
  | endedBadGroup | endedLoaded | endedShort | ended => exact .inr ⟨_, rfl, by simp⟩
  | requested => exact .inr ⟨_, rfl, by simp⟩
  | keyMissing | violated => exact .inr ⟨_, rfl, by simp [errorCode]⟩
  | stored d hi hp => exact .inr ⟨_, rfl, by simp [hinv.wait_err hp]⟩
  | started m => exact .inl (startDecode_events m s)
  | _ => exact .inl rfl

/-- A valid key is never inside an open secret transaction, so only a secret-mode `B32_START` touches it. -/
theorem keeps_valid_key (hinv : Inv s) (hk : s.keyValid = true) :
    (t.key = s.key ∧ t.keyValid = true) ∨ (i = .b32Start .secret ∧ s.phase ≠ .waitHmac) := by
  by_cases hi : i = .b32Start .secret ∧ s.phase ≠ .waitHmac
  · exact .inr hi
  · refine .inl ⟨?key, ?valid⟩
    case key =>
      by_contra hne
      rcases h.writes_key hne with hstart | ⟨-, hopen⟩
      · exact hi hstart
      · obtain ⟨hp, hm, -⟩ := (secretOpen_iff s).1 hopen
        rw [hinv.secret_no_key hp hm] at hk
        cases hk
    case valid =>
      by_contra hne
      exact hi (h.clears_keyValid (Bool.eq_false_iff.2 hne) hk)

/-- What each error leaves behind, error by error (60_exceptions.md R207). -/
theorem raises (hinv : Inv s) (hne : t.err ≠ s.err) (h0 : t.err ≠ 0) :
    t.key = s.key ∧ t.msg = s.msg ∧ t.codeD = s.codeD ∧ t.codeBin = s.codeBin ∧ t.keyValid = s.keyValid ∧
    (t.err = 1 → t.keyValid = false ∧ t.codeValid = s.codeValid ∧ s.mode = .secret) ∧
    (t.err = 2 ∨ t.err = 3 → t.codeValid = s.codeValid ∧ s.mode = .generic) ∧
    (t.err = 4 → t.keyValid = false ∧ t.codeValid = false ∧ t.phase = .idle) ∧
    (t.err = 6 → t.keyValid = true ∧ t.codeValid = false ∧ t.phase = .idle) := by
  cases h with
  | secretRefused _ hp hm | endedShort _ hp hm =>
    exact ⟨rfl, rfl, rfl, rfl, rfl, by simp [errorCode, hm, hinv.secret_no_key hp hm]⟩
  | characterRefused _ _ hm | endedBadGroup _ _ hm => exact ⟨rfl, rfl, rfl, rfl, rfl, by simp [errorCode, hm]⟩
  | keyMissing c hi hp hk => exact ⟨rfl, rfl, rfl, rfl, rfl, by simp [errorCode, hp, hk]⟩
  | violated len d hi hl hp =>
    obtain ⟨hk, hc⟩ := hinv.wait_key hp
    exact ⟨rfl, rfl, rfl, rfl, rfl, by simp [errorCode, hk, hc]⟩
  | started m => exact absurd (startDecode_err m s) h0
  | requested => exact absurd rfl h0
  | _ => exact absurd rfl hne

/-! ### While a request is out -/

theorem of_waitHmac (hw : s.phase = .waitHmac) :
    ((∀ len d, i ≠ .hmacResp len d) ∧ (t = s ∨ t = dropWithFault s)) ∨
    ((∃ len d, i = .hmacResp len d) ∧ t.phase = .idle ∧ t.key = s.key ∧ t.msg = s.msg ∧ t.fault = s.fault) := by
  cases h with
  | dropped ha =>
    refine .inl ⟨?_, .inr rfl⟩
    rintro len d rfl
    exact not_accepts_hmacResp ha hw
  | nop hi =>
    subst hi
    exact .inl ⟨fun _ _ => Instr.noConfusion, .inl rfl⟩
  | stored d hi => exact .inr ⟨⟨20, d, hi⟩, rfl, rfl, rfl, rfl⟩
  | violated len d hi => exact .inr ⟨⟨len, d, hi⟩, rfl, rfl, rfl, rfl⟩
  | started m hi hp => exact absurd hw hp
  | pushAfterError _ hp | padSkipped _ hp | secretRefused _ hp | characterRefused _ hp | secretSymbol _ hp
  | secretSymbolByte _ hp | genericSymbol _ hp | genericSymbolByte _ hp | endedBadGroup _ hp | endedLoaded _ hp
  | endedShort _ hp | ended _ hp | requested _ _ hp | keyMissing _ _ hp =>
    rw [hw] at hp
    cases hp

end Transition

end Sys2Proof.Machine

namespace Sys2Proof.Proofs

open Sys2Proof.Machine Sys2Proof.Safety

/-- Settles O42, register by register. -/
theorem onlyTheNamedTransactionsWriteTheDataRegisters : Obligations.OnlyTheNamedTransactionsWriteTheDataRegisters := by
  unfold Obligations.OnlyTheNamedTransactionsWriteTheDataRegisters
  intro i s t hexec
  have h := exec_transition hexec
  exact ⟨h.writes_key, h.sets_keyValid, h.clears_keyValid, h.writes_msg, h.writes_code, h.sets_codeValid,
    h.clears_codeValid, h.writes_mode⟩

/-- Settles O43: the other writers of `KEY` are pushes in an open secret transaction, where no key is valid. -/
theorem validKeyChangesOnlyBySecretStart : Obligations.ValidKeyChangesOnlyBySecretStart := by
  unfold Obligations.ValidKeyChangesOnlyBySecretStart
  intro i s t hinv hk h
  exact (exec_transition h).keeps_valid_key hinv hk

/-- Settles O44: pushes and ends raise only while `ERR` is 0, and while a request is out it is 0. -/
theorem openTransactionKeepsItsFirstError : Obligations.OpenTransactionKeepsItsFirstError := by
  unfold Obligations.OpenTransactionKeepsItsFirstError
  intro i s t hinv he h
  exact (exec_transition h).err_stays hinv he

/-- Settles O45: what is no response is `NOP` or dropped. -/
theorem onlyAResponseLeavesTheWait : Obligations.OnlyAResponseLeavesTheWait := by
  unfold Obligations.OnlyAResponseLeavesTheWait
  intro i s t hw h
  rcases (exec_transition h).of_waitHmac hw with ⟨hi, rfl | rfl⟩ | hresp
  · exact .inl ⟨hi, .inl rfl, hw, rfl, rfl⟩
  · exact .inl ⟨hi, .inr rfl, hw, rfl, rfl⟩
  · exact .inr hresp

/-- Settles O59, error by error. -/
theorem errorsLeaveWhatTheTableSays : Obligations.ErrorsLeaveWhatTheTableSays := by
  unfold Obligations.ErrorsLeaveWhatTheTableSays
  intro i s t hinv h hne h0
  exact (exec_transition h).raises hinv hne h0

/-- Settles O9: only `storeCode` closes a call without reading `ERR`, and while a request is out `ERR` is 0. -/
theorem eventsOfAStepAreAtMostOneAndCloseWithErr : Obligations.EventsOfAStepAreAtMostOneAndCloseWithErr := by
  unfold Obligations.EventsOfAStepAreAtMostOneAndCloseWithErr
  intro i s t hinv hexec
  have h := exec_transition hexec
  exact ⟨h.inputs_eq, h.events_eq hinv⟩

end Sys2Proof.Proofs
end

section
/-! SUPPORT. Proofs of the statements about the invariant of 10_state.md R28: it holds at reset and every step keeps it, and in an open
secret transaction it bounds the index into `KEY` (40_base32_decoder.md R97). -/

namespace Sys2Proof.Machine

open Sys2Proof.Safety

theorem inv_reset : Inv State.reset := by
  constructor <;> decide

theorem inv_applyReset (s : State) : Inv (applyReset s) := { inv_reset with }

theorem errorCode_written {e : ErrorName} (he : e ≠ .formatError) :
    errorCode e = 0 ∨ errorCode e = 1 ∨ errorCode e = 2 ∨ errorCode e = 3 ∨ errorCode e = 4 ∨ errorCode e = 6 := by
  cases e with
  | formatError => exact absurd rfl he
  | _ => decide

section Updates

variable {s : State} (h : Inv s)

include h

theorem inv_takeInput : Inv (takeInput s) := { h with }

theorem inv_dropWithFault : Inv (dropWithFault s) := { h with }

theorem inv_emit (ev : Event) : Inv (emit ev s) := { h with }

theorem inv_raise {e : ErrorName} (he : e ≠ .formatError) (hp : s.phase ≠ .waitHmac) : Inv (raise e s) :=
  { h with
    err_written := errorCode_written he
    wait_err := fun hw => absurd hw hp }

/-- In `IDLE` the invariant says nothing of the transaction that was open or of the request that was out, and binds no valid bit. -/
theorem inv_idle (k c : Bool) : Inv { s with phase := .idle, keyValid := k, codeValid := c } :=
  { h with
    gpos_of_nsym := Phase.noConfusion
    generic_counts := Phase.noConfusion
    wait_key := Phase.noConfusion
    wait_err := Phase.noConfusion
    secret_no_key := Phase.noConfusion }

theorem inv_closeDecode : Inv (closeDecode s) := inv_emit (inv_idle h s.keyValid s.codeValid) _

theorem inv_startDecode (m : Mode) : Inv (startDecode m s) where
  err_written := .inl (startDecode_err m s)
  nbits_of_gpos := by simp
  acc_fits := by simp
  nsym_le := by simp
  nbytes_of_nsym := by simp
  nbytes_le := by simp
  gpos_of_nsym := by simp
  generic_counts := by simp
  digits_le := by simpa using h.digits_le
  code_lt := by simpa using h.code_lt
  code_agrees := by simpa using h.code_agrees
  wait_key := by simp
  wait_err := by simp
  secret_no_key := by
    intro _ hm
    rw [startDecode_mode] at hm
    subst hm
    exact startDecode_secret_keyValid s

theorem inv_requestHmac (c : Counter) (hk : s.keyValid = true) : Inv (requestHmac c s) :=
  { h with
    err_written := .inl rfl
    gpos_of_nsym := Phase.noConfusion
    generic_counts := Phase.noConfusion
    wait_key := fun _ => ⟨hk, rfl⟩
    wait_err := fun _ => rfl
    secret_no_key := Phase.noConfusion }

theorem inv_storeCode (d : Digest) : Inv (storeCode d s) :=
  { inv_idle h s.keyValid true with
    digits_le := fun i => by
      have hi : (storeCode d s).codeD[i] = digit (numericCode (truncate d)) i.val := by fin_cases i <;> rfl
      rw [hi]
      exact digit_toNat_le _ _
    code_lt := numericCode_toNat_le _
    code_agrees := (codeNumber_digits (numericCode_toNat_le _)).symm }

/-! ### A symbol -/

theorem nbits_of_gpos_acceptSymbol (v : SymVal) :
    (acceptSymbol v s).nbits.toNat = 5 * (acceptSymbol v s).gpos.toNat % 8 := by
  have hn := h.nbits_of_gpos
  have hg : (s.gpos + 1).toNat = (s.gpos.toNat + 1) % 8 := BitVec.toNat_add _ _
  rw [acceptSymbol_nbits, acceptSymbol_gpos, nbitsAfter_toNat, hg]
  omega

theorem inv_acceptSymbol (v : SymVal) (hm : s.mode = .generic) : Inv (acceptSymbol v s) :=
  { h with
    nbits_of_gpos := nbits_of_gpos_acceptSymbol h v
    acc_fits := accAfter_toNat_lt v h.acc_fits
    gpos_of_nsym := fun _ hs => by rw [acceptSymbol_mode, hm] at hs; cases hs }

/-- In an open secret transaction the bits left over are those of the symbols taken (10_state.md R22, R24). -/
theorem nbits_of_nsym (hp : s.phase = .decoding) (hm : s.mode = .secret) : s.nbits.toNat = 5 * s.nsym.toNat % 8 := by
  have hnb := h.nbits_of_gpos
  have hg := h.gpos_of_nsym hp hm
  omega

section SecretSymbol

variable (v : SymVal) (hp : s.phase = .decoding) (hm : s.mode = .secret) (hn : s.nsym ≠ 16)

include hn

theorem nsym_lt : s.nsym.toNat < 16 := by
  have hle := h.nsym_le
  have hne : s.nsym.toNat ≠ 16 := fun h16 => hn (BitVec.eq_of_toNat_eq h16)
  omega

theorem nsym_succ_toNat : (s.nsym + 1).toNat = s.nsym.toNat + 1 := by
  have hlt := nsym_lt h hn
  have hadd : (s.nsym + 1).toNat = (s.nsym.toNat + 1) % 32 := BitVec.toNat_add _ _
  omega

/-- With fewer than 16 symbols taken `KEY` has room for another byte. -/
theorem nbytes_lt : s.nbytes.toNat < 10 := by
  have hlt := nsym_lt h hn
  have hnb := h.nbytes_of_nsym
  omega

theorem nbytes_succ_toNat : (s.nbytes + 1).toNat = s.nbytes.toNat + 1 := by
  have hlt := nbytes_lt h hn
  have hadd : (s.nbytes + 1).toNat = (s.nbytes.toNat + 1) % 16 := BitVec.toNat_add _ _
  omega

include hp hm

theorem gpos_succ_of_nsym : (s.gpos + 1).toNat = (s.nsym + 1).toNat % 8 := by
  have hadd : (s.gpos + 1).toNat = (s.gpos.toNat + 1) % 8 := BitVec.toNat_add _ _
  rw [nsym_succ_toNat h hn, hadd, h.gpos_of_nsym hp hm]
  omega

theorem inv_secretSymbol (hb : completedByte s.acc s.nbits v = none) :
    Inv { acceptSymbol v s with nsym := s.nsym + 1 } :=
  { h with
    nbits_of_gpos := nbits_of_gpos_acceptSymbol h v
    acc_fits := accAfter_toNat_lt v h.acc_fits
    nsym_le := (nsym_succ_toNat h hn).trans_le (nsym_lt h hn)
    nbytes_of_nsym := by
      obtain ⟨hlt, -⟩ := window_eq_of_no_byte v h.acc_fits hb
      have hnb := nbits_of_nsym h hp hm
      have hbytes := h.nbytes_of_nsym
      have hsucc := nsym_succ_toNat h hn
      show s.nbytes.toNat = 5 * (s.nsym + 1).toNat / 8
      omega
    gpos_of_nsym := fun _ _ => gpos_succ_of_nsym h hp hm hn
    generic_counts := fun _ hg => by rw [show s.mode = .generic from hg] at hm; cases hm }

theorem inv_secretSymbolByte {b : Byte} (hb : completedByte s.acc s.nbits v = some b) :
    Inv (writeKeyByte b { acceptSymbol v s with nsym := s.nsym + 1 }) :=
  { h with
    nbits_of_gpos := nbits_of_gpos_acceptSymbol h v
    acc_fits := accAfter_toNat_lt v h.acc_fits
    nsym_le := (nsym_succ_toNat h hn).trans_le (nsym_lt h hn)
    nbytes_of_nsym := by
      obtain ⟨hle, -⟩ := window_eq_of_byte v h.acc_fits hb
      have hnb := nbits_of_nsym h hp hm
      have hbytes := h.nbytes_of_nsym
      have hsucc := nsym_succ_toNat h hn
      have hbsucc := nbytes_succ_toNat h hn
      show (s.nbytes + 1).toNat = 5 * (s.nsym + 1).toNat / 8
      omega
    nbytes_le := (nbytes_succ_toNat h hn).trans_le (nbytes_lt h hn)
    gpos_of_nsym := fun _ _ => gpos_succ_of_nsym h hp hm hn
    generic_counts := fun _ hg => by rw [show s.mode = .generic from hg] at hm; cases hm }

end SecretSymbol

end Updates

theorem phase_ne_waitHmac_of_decoding {s : State} (hp : s.phase = .decoding) : s.phase ≠ .waitHmac := by
  rw [hp]; exact Phase.noConfusion

theorem phase_ne_waitHmac_of_idle {s : State} (hp : s.phase = .idle) : s.phase ≠ .waitHmac := by
  rw [hp]; exact Phase.noConfusion

theorem Transition.keeps_inv {i : Instr} {s t : State} (h : Transition i s t) (hinv : Inv s) : Inv t := by
  cases h with
  | dropped => exact inv_dropWithFault hinv
  | nop | pushAfterError | padSkipped => exact hinv
  | secretRefused _ hp | characterRefused _ hp =>
    exact inv_raise hinv ErrorName.noConfusion (phase_ne_waitHmac_of_decoding hp)
  | secretSymbol _ hp hm _ hn hb => exact inv_secretSymbol hinv _ hp hm hn hb
  | secretSymbolByte _ hp hm _ hn hb => exact inv_secretSymbolByte hinv _ hp hm hn hb
  | genericSymbol _ _ hm => exact inv_acceptSymbol hinv _ hm
  | genericSymbolByte _ _ hm => exact inv_emit (inv_acceptSymbol hinv _ hm) _
  | started m => exact inv_startDecode hinv m
  | endedBadGroup _ hp | endedShort _ hp =>
    exact inv_closeDecode (inv_raise hinv ErrorName.noConfusion (phase_ne_waitHmac_of_decoding hp))
  | endedLoaded => exact inv_emit (inv_idle hinv true s.codeValid) _
  | ended => exact inv_closeDecode hinv
  | requested c _ _ hk => exact inv_requestHmac hinv c hk
  | keyMissing c _ hp =>
    have hclear : Inv { s with phase := .idle, codeValid := false } := inv_idle hinv s.keyValid false
    rw [← hp] at hclear
    exact inv_emit (inv_raise hclear ErrorName.noConfusion (phase_ne_waitHmac_of_idle hp)) _
  | stored d => exact inv_storeCode hinv d
  | violated => exact inv_emit (inv_raise (inv_idle hinv s.keyValid s.codeValid) ErrorName.noConfusion Phase.noConfusion) _

theorem step_keeps_inv {s t : State} (h : step s = .next t) (hinv : Inv s) : Inv t := by
  rcases step_cases h with rfl | rfl | ⟨i, hi⟩
  · exact inv_takeInput hinv
  · exact inv_applyReset _
  · exact (exec_transition hi).keeps_inv (inv_takeInput hinv)

end Sys2Proof.Machine

namespace Sys2Proof.Proofs

open Sys2Proof.Machine Sys2Proof.Safety

/-- Settles O50: an update keeps the invariant or a transaction's guards give back what the update could break. -/
theorem everyStepKeepsTheInvariant : Obligations.EveryStepKeepsTheInvariant := by
  unfold Obligations.EveryStepKeepsTheInvariant
  intro s t hinv h
  exact step_keeps_inv h hinv

/-- Settles O27: `NBYTES` counts the bytes of at most 15 symbols. -/
theorem keyIndexStaysInRange : Obligations.KeyIndexStaysInRange := by
  unfold Obligations.KeyIndexStaysInRange
  intro s v b hinv _ _ hn _
  exact ⟨Nat.le_of_lt_succ (nbytes_lt hinv hn), nsym_succ_toNat hinv hn, nbytes_succ_toNat hinv hn⟩

/-- Settles O49: at reset no key is valid and no secret transaction is open, so the history is bound to nothing. -/
theorem invariantHoldsAtReset : Obligations.InvariantHoldsAtReset := by
  unfold Obligations.InvariantHoldsAtReset
  refine ⟨inv_reset, inv_reset, ?_, ?_, ?_, ?_⟩ <;> exact Bool.noConfusion

end Sys2Proof.Proofs
end

section
/-! SUPPORT. Proofs of the statements about the rows of format SYM (30_encoding.md R66 to R69, 40_base32_decoder.md R96 to R98): each runs
the push of its class. -/

namespace Sys2Proof.Machine

open Sys2Proof.Safety Sys2Proof.Statements

theorem pushClass_of_err_ne {s : State} (hp : s.phase = .decoding) (he : s.err ≠ 0) (c : CharClass) :
    pushClass c s = .next s := by
  rw [pushClass, decide_eq_true hp, runIfAccepted_true, pushOpen, if_neg he]

theorem pushClass_of_not_decoding {s : State} (hp : s.phase ≠ .decoding) (c : CharClass) :
    pushClass c s = .next (dropWithFault s) := by
  rw [pushClass, decide_eq_false hp, runIfAccepted_false]

theorem pushSecret_phase_mode (c : CharClass) (s : State) :
    (pushSecret c s).phase = s.phase ∧ (pushSecret c s).mode = s.mode := by
  rcases pushSecret_cases c s with ht | ⟨v, -, -, ⟨-, ht⟩ | ⟨b, -, ht⟩⟩ <;> rw [ht] <;> exact ⟨rfl, rfl⟩

theorem pushGeneric_phase_mode (c : CharClass) (s : State) :
    (pushGeneric c s).phase = s.phase ∧ (pushGeneric c s).mode = s.mode := by
  rcases pushGeneric_cases c s with ⟨-, ht⟩ | ⟨-, ht⟩ | ⟨v, -, ⟨-, ht⟩ | ⟨b, -, ht⟩⟩ <;> rw [ht] <;> exact ⟨rfl, rfl⟩

/-- No push opens or closes a transaction. -/
theorem pushClass_phase_mode {c : CharClass} {s t : State} (h : pushClass c s = .next t) :
    t.phase = s.phase ∧ t.mode = s.mode := by
  rcases pushClass_cases h with ⟨-, rfl⟩ | ⟨-, -, rfl⟩ | ⟨-, -, -, rfl⟩ | ⟨-, -, -, rfl⟩
  · exact ⟨rfl, rfl⟩
  · exact ⟨rfl, rfl⟩
  · exact pushSecret_phase_mode c s
  · exact pushGeneric_phase_mode c s

/-- An instruction that pushes the class of a symbol does with it what R97 and R98 say. -/
theorem pushes_of_pushedClass {i : Instr} {v : SymVal} (h : pushedClass i = some (.sym v)) :
    PushesGenericSymbol v (exec i) ∧ PushesSecretSymbol v (exec i) := by
  have hexec : exec i = pushClass (.sym v) := funext (exec_of_pushedClass h)
  rw [hexec]
  exact ⟨pushClass_pushesGenericSymbol v, pushClass_pushesSecretSymbol v⟩

theorem pushedClass_letterInstrs : ∀ r ∈ letterInstrs, ∀ lower, pushedClass (r.1 lower) = some (.sym r.2) := by
  decide

theorem pushedClass_digitInstrs : ∀ r ∈ digitInstrs, pushedClass r.1 = some (.sym r.2) := by
  decide

end Sys2Proof.Machine

namespace Sys2Proof.Proofs

open Sys2Proof.Machine

/-- Settles O22: the value beside a letter row is the value of the class it pushes. -/
theorem letterRowsPushTheirValue : Obligations.LetterRowsPushTheirValue := by
  unfold Obligations.LetterRowsPushTheirValue
  intro r hr lower
  exact pushes_of_pushedClass (pushedClass_letterInstrs r hr lower)

/-- Settles O23: the value beside a digit row is the value of the class it pushes. -/
theorem digitRowsPushTheirValue : Obligations.DigitRowsPushTheirValue := by
  unfold Obligations.DigitRowsPushTheirValue
  intro r hr
  exact pushes_of_pushedClass (pushedClass_digitInstrs r hr)

/-- Settles O24, mode by mode. -/
theorem padAndInvalidRows : Obligations.PadAndInvalidRows := by
  unfold Obligations.PadAndInvalidRows
  intro ch s hp he
  refine ⟨fun hm => ⟨?_, ?_⟩, fun hm => ⟨?_, ?_⟩⟩
  · exact pushClass_of_generic hp he hm .pad
  · exact pushClass_of_generic hp he hm .invalid
  · exact pushClass_of_secret hp he hm .pad
  · exact pushClass_of_secret hp he hm .invalid

/-- Settles O21: the phase and then `ERR` are asked before the character. -/
theorem pushAfterErrorOrOutsideTransaction : Obligations.PushAfterErrorOrOutsideTransaction := by
  unfold Obligations.PushAfterErrorOrOutsideTransaction
  exact ⟨fun ch s hp he => pushClass_of_err_ne hp he (classify ch), fun ch s hp => pushClass_of_not_decoding hp (classify ch),
    fun ch s t h => pushClass_phase_mode h⟩

end Sys2Proof.Proofs
end

section
/-! SUPPORT. Proofs of the statements about a whole code call: the request on the ports (20_memory.md R46, 42_hmac_sha1_interface.md R132)
and the code that the unit's answer leaves (45_token_engine.md R173, 70_reset_and_hazards.md R233). -/

namespace Sys2Proof.Machine

open Sys2Proof.Safety

theorem exec_hotp_request {s : State} (hp : s.phase = .idle) (hk : s.keyValid = true) (c : Counter) :
    exec (.hotp c) s = .next (requestHmac c s) := by
  rw [exec_hotp_of_idle hp, startCall_of_keyValid hk]

theorem exec_dutifulAnswer {s : State} (hp : s.phase = .waitHmac) (k : Key) (m : Msg) :
    exec (dutifulAnswer k m) s = .next (storeCode (Config.hmac k m) s) := by
  rw [dutifulAnswer, exec_hmacResp_of_waitHmac hp, takeResponse_of_len_eq]

theorem newEvents_of_append {s t : State} {evs : List Event} (h : t.events = s.events ++ evs) : newEvents s t = evs := by
  rw [newEvents, h, List.drop_left]

theorem codeNumber_hotp (k : Key) (c : Counter) : codeNumber (hotp k c) = (hotpBin k c).toNat :=
  codeNumber_digits (numericCode_toNat_le _)

theorem execSeq_cons_of_next {i : Instr} {is : List Instr} {s t : State} (h : exec i s = .next t) :
    execSeq (i :: is) s = execSeq is t := by
  rw [execSeq, h]

end Sys2Proof.Machine

namespace Sys2Proof.Proofs

open Sys2Proof.Machine Sys2Proof.Safety Sys2Proof.Statements

/-- Settles O48: the request is the one event of the step, and the lanes of the message undo the packing. -/
theorem requestPortsCarryKeyAndCounter : Obligations.RequestPortsCarryKeyAndCounter := by
  unfold Obligations.RequestPortsCarryKeyAndCounter
  intro c s hp hk
  have hevents : newEvents s (requestHmac c s) = [.hmacReq s.key (pack64be c)] := newEvents_of_append rfl
  refine ⟨requestHmac c s, exec_hotp_request hp hk c, ?msg, ?key, ?strobes⟩
  case msg => rw [hmacMsgPort_of_waitHmac rfl, requestHmac_msg, msgLanes_pack64be]
  case key =>
    intro i
    rw [hmacKeyPort_of_waitHmac rfl, requestHmac_key, keyLanes_toNat, laneByte_lanesNumber]
  case strobes => simp [outputPorts, hevents, isHmacReq, isDecDone, isCodeDone, decByteOf]

/-- Settles O55: the request goes out with the key and the packed counter, and the answer to it is stored. -/
theorem wholeCallComputesHotp : Obligations.WholeCallComputesHotp := by
  unfold Obligations.WholeCallComputesHotp
  intro s c hp hk
  refine ⟨?call, (codeNumber_hotp s.key c).symm⟩
  case call =>
    rw [execSeq_cons_of_next (exec_hotp_request hp hk c), execSeq_cons_of_next (exec_dutifulAnswer rfl _ _), execSeq,
      storeCode, requestHmac]
    simp [emit, clearError, hotp, hotpBin, hp]

/-- Settles O60: a dutiful response is the answer to the request that is out, so it stores the code of `KEY` and `MSG`. -/
theorem dutifulAnswerEndsTheCallWell : Obligations.DutifulAnswerEndsTheCallWell := by
  unfold Obligations.DutifulAnswerEndsTheCallWell
  intro s len d c hinv hunit hmsg
  obtain ⟨hp, hanswer⟩ := hunit len d rfl
  obtain ⟨hk, -⟩ := hinv.wait_key hp
  rw [hanswer, hmsg]
  refine ⟨_, exec_dutifulAnswer hp _ _, rfl, rfl, rfl, hinv.wait_err hp, rfl, hk, rfl, ?ended⟩
  case ended =>
    intro hi
    rw [endedWell, storeCode_inputs, hi, storeCode_phase]; rfl

end Sys2Proof.Proofs
end

section
/-! SUPPORT. The symbols taken so far as a number: the bytes they complete, and the bits left over in `ACC` and `NBITS`
(40_base32_decoder.md R90, R94). -/

namespace Sys2Proof.Machine

/-! ### One more symbol -/

theorem symbolBits_append (syms : List SymVal) (v : SymVal) :
    symbolBits (syms ++ [v]) = symbolBits syms * 32 + v.toNat := by
  simp [symbolBits, List.foldl_append]

theorem bytesOfSymbols_length (syms : List SymVal) (count : Nat) : (bytesOfSymbols syms count).length = count := by
  simp [bytesOfSymbols]

theorem bytesOfSymbols_succ (syms : List SymVal) (count : Nat) :
    bytesOfSymbols syms (count + 1) =
      bytesOfSymbols syms count ++ [BitVec.ofNat 8 (symbolBits syms / 2 ^ (5 * syms.length - 8 - 8 * count))] := by
  simp [bytesOfSymbols, List.range_succ]

/-- A complete byte does not change when more symbols come. -/
theorem bytesOfSymbols_append {syms : List SymVal} {count : Nat} (h : 8 * count ≤ 5 * syms.length) (v : SymVal) :
    bytesOfSymbols (syms ++ [v]) count = bytesOfSymbols syms count := by
  apply List.map_congr_left
  intro j hj
  have hj : j < count := List.mem_range.1 hj
  have hexp : 5 * (syms ++ [v]).length - 8 - 8 * j = 5 + (5 * syms.length - 8 - 8 * j) := by
    rw [List.length_append, List.length_singleton]
    omega
  have hdiv : (symbolBits syms * 32 + v.toNat) / 2 ^ 5 = symbolBits syms := by omega
  rw [symbolBits_append, hexp, Nat.pow_add, ← Nat.div_div_eq_div_mul, hdiv]

/-- The bytes that `syms` complete. -/
def completeBytes (syms : List SymVal) : List Byte := bytesOfSymbols syms (5 * syms.length / 8)

/-- `NBITS` when `syms` have been taken. -/
def leftCount (syms : List SymVal) : BitVec 3 := BitVec.ofNat 3 (5 * syms.length)

/-- `ACC` when `syms` have been taken. -/
def leftBits (syms : List SymVal) : BitVec 7 := BitVec.ofNat 7 (symbolBits syms % 2 ^ (5 * syms.length % 8))

theorem completeBytes_length (syms : List SymVal) : (completeBytes syms).length = 5 * syms.length / 8 :=
  bytesOfSymbols_length _ _

theorem leftCount_toNat (syms : List SymVal) : (leftCount syms).toNat = 5 * syms.length % 8 := BitVec.toNat_ofNat _ _

theorem leftBits_toNat (syms : List SymVal) : (leftBits syms).toNat = symbolBits syms % 2 ^ (leftCount syms).toNat := by
  have hlt : symbolBits syms % 2 ^ (5 * syms.length % 8) < 2 ^ 7 :=
    (Nat.mod_lt _ (Nat.two_pow_pos _)).trans_le (Nat.pow_le_pow_right (by decide) (by omega))
  rw [leftBits, BitVec.toNat_ofNat, Nat.mod_eq_of_lt hlt, leftCount_toNat]

theorem leftBits_lt (syms : List SymVal) : (leftBits syms).toNat < 2 ^ (leftCount syms).toNat := by
  rw [leftBits_toNat]
  exact Nat.mod_lt _ (Nat.two_pow_pos _)

theorem leftCount_append (syms : List SymVal) (v : SymVal) : leftCount (syms ++ [v]) = nbitsAfter (leftCount syms) := by
  apply BitVec.eq_of_toNat_eq
  rw [nbitsAfter_toNat, leftCount_toNat, leftCount_toNat, List.length_append, List.length_singleton]
  omega

/-- The next symbol is shifted in below the bits left over: what stands above them moves up by 5. -/
theorem symbolBits_append_window (syms : List SymVal) (v : SymVal) :
    symbolBits (syms ++ [v]) =
      symbolBits syms / 2 ^ (leftCount syms).toNat * 2 ^ ((leftCount syms).toNat + 5) +
        ((leftBits syms).toNat * 32 + v.toNat) := by
  have hsplit := Nat.div_add_mod' (symbolBits syms) (2 ^ (leftCount syms).toNat)
  rw [← leftBits_toNat] at hsplit
  rw [symbolBits_append, Nat.pow_add, ← Nat.mul_assoc]
  omega

/-- No byte completes: everything left over stays. -/
theorem symbolBits_append_of_no_byte {syms : List SymVal} {v : SymVal}
    (hb : completedByte (leftBits syms) (leftCount syms) v = none) :
    (leftCount syms).toNat < 3 ∧
      symbolBits (syms ++ [v]) =
        symbolBits syms / 2 ^ (leftCount syms).toNat * 2 ^ (leftCount (syms ++ [v])).toNat +
          (accAfter (leftBits syms) (leftCount syms) v).toNat := by
  obtain ⟨hlt, hwindow⟩ := window_eq_of_no_byte v (leftBits_lt syms) hb
  have hcount : (leftCount (syms ++ [v])).toNat = (leftCount syms).toNat + 5 := by
    rw [leftCount_append, nbitsAfter_toNat]
    omega
  exact ⟨hlt, by rw [symbolBits_append_window, hwindow, hcount]⟩

/-- A byte completes: it stands between the complete bytes and what is left over. -/
theorem symbolBits_append_of_byte {syms : List SymVal} {v : SymVal} {b : Byte}
    (hb : completedByte (leftBits syms) (leftCount syms) v = some b) :
    3 ≤ (leftCount syms).toNat ∧
      symbolBits (syms ++ [v]) =
        (symbolBits syms / 2 ^ (leftCount syms).toNat * 2 ^ 8 + b.toNat) * 2 ^ (leftCount (syms ++ [v])).toNat +
          (accAfter (leftBits syms) (leftCount syms) v).toNat := by
  obtain ⟨hle, hwindow⟩ := window_eq_of_byte v (leftBits_lt syms) hb
  have hcount : (leftCount syms).toNat + 5 = 8 + (leftCount (syms ++ [v])).toNat := by
    have hlt := (leftCount syms).isLt
    rw [leftCount_append, nbitsAfter_toNat]
    omega
  refine ⟨hle, ?_⟩
  rw [symbolBits_append_window, hwindow, ← leftCount_append, hcount, Nat.pow_add, Nat.add_mul, ← Nat.mul_assoc,
    Nat.add_assoc]

theorem leftBits_append (syms : List SymVal) (v : SymVal) :
    leftBits (syms ++ [v]) = accAfter (leftBits syms) (leftCount syms) v := by
  have hlt : (accAfter (leftBits syms) (leftCount syms) v).toNat < 2 ^ (leftCount (syms ++ [v])).toNat := by
    rw [leftCount_append]
    exact accAfter_toNat_lt v (leftBits_lt syms)
  apply BitVec.eq_of_toNat_eq
  rw [leftBits_toNat]
  cases hb : completedByte (leftBits syms) (leftCount syms) v with
  | none => rw [(symbolBits_append_of_no_byte hb).2, Nat.mul_add_mod', Nat.mod_eq_of_lt hlt]
  | some b => rw [(symbolBits_append_of_byte hb).2, Nat.mul_add_mod', Nat.mod_eq_of_lt hlt]

/-- The bytes that one more symbol completes are those before it and the byte that the shift-in gives, if it gives one. -/
theorem completeBytes_append (syms : List SymVal) (v : SymVal) :
    completeBytes (syms ++ [v]) =
      completeBytes syms ++ (completedByte (leftBits syms) (leftCount syms) v).toList := by
  have hlen : (syms ++ [v]).length = syms.length + 1 := by simp
  have hcount := leftCount_toNat syms
  have hold : bytesOfSymbols (syms ++ [v]) (5 * syms.length / 8) = completeBytes syms :=
    bytesOfSymbols_append (by omega) v
  cases hb : completedByte (leftBits syms) (leftCount syms) v with
  | none =>
    obtain ⟨hlt, -⟩ := symbolBits_append_of_no_byte hb
    have hbytes : 5 * (syms ++ [v]).length / 8 = 5 * syms.length / 8 := by omega
    rw [completeBytes, hbytes, hold, Option.toList_none, List.append_nil]
  | some b =>
    obtain ⟨hle, hsplit⟩ := symbolBits_append_of_byte hb
    have hbytes : 5 * (syms ++ [v]).length / 8 = 5 * syms.length / 8 + 1 := by omega
    have hexp : 5 * (syms ++ [v]).length - 8 - 8 * (5 * syms.length / 8) = (leftCount (syms ++ [v])).toNat := by
      rw [leftCount_toNat]
      omega
    have hrest : (accAfter (leftBits syms) (leftCount syms) v).toNat < 2 ^ (leftCount (syms ++ [v])).toNat := by
      rw [← leftBits_append]
      exact leftBits_lt _
    have hquotient : symbolBits (syms ++ [v]) / 2 ^ (leftCount (syms ++ [v])).toNat =
        symbolBits syms / 2 ^ (leftCount syms).toNat * 2 ^ 8 + b.toNat := by
      rw [hsplit, Nat.mul_comm, Nat.mul_add_div (Nat.two_pow_pos _), Nat.div_eq_of_lt hrest, Nat.add_zero]
    have hbyte : BitVec.ofNat 8 (symbolBits syms / 2 ^ (leftCount syms).toNat * 2 ^ 8 + b.toNat) = b := by
      apply BitVec.eq_of_toNat_eq
      rw [BitVec.toNat_ofNat, Nat.mul_add_mod', Nat.mod_eq_of_lt b.isLt]
    rw [completeBytes, hbytes, bytesOfSymbols_succ, hold, hexp, hquotient, hbyte, Option.toList_some]

end Sys2Proof.Machine
end

section
/-! SUPPORT. Proof of the statement about the key and its history (10_state.md R28 (g)): in an open secret transaction the working registers
hold the symbols taken, and a valid key is the one that the last 16 of them loaded. -/

namespace Sys2Proof.Machine

open Sys2Proof.Safety

/-! ### The history after a transaction -/

section History

variable {i : Instr} {s : State} (h : SecretHistory)

theorem historyAfter_of_start {m : Mode} (hi : i = .b32Start m) (hp : s.phase ≠ .waitHmac) :
    historyAfter s i h = { h with taken := [] } := by
  subst hi
  exact if_neg hp

theorem historyAfter_of_load (hi : i = .b32End) (ho : secretOpen s = true) (hn : s.nsym = 16) :
    historyAfter s i h = { h with loaded := h.taken } := by
  subst hi
  simp [historyAfter, ho, hn]

theorem historyAfter_of_end (hi : i = .b32End) (hno : secretOpen s = true → s.nsym ≠ 16) :
    historyAfter s i h = h := by
  subst hi
  refine if_neg ?_
  simpa using hno

/-- A push adds the value of its symbol, if it has one, where a secret is being taken and is not full. -/
theorem historyAfter_of_pushedClass {c : CharClass} (hi : pushedClass i = some c) :
    historyAfter s i h =
      (symbolValue c).elim h fun v => if secretOpen s && s.nsym != 16 then { h with taken := h.taken ++ [v] } else h := by
  have hv : (pushedClass i).bind symbolValue = symbolValue c := by rw [hi]; rfl
  cases i with
  | b32Start m => cases hi
  | b32End => cases hi
  | _ => simp only [historyAfter, hv]; cases symbolValue c <;> rfl

theorem historyAfter_of_taken {v : SymVal} (hi : pushedClass i = some (.sym v)) (ho : secretOpen s = true)
    (hn : s.nsym ≠ 16) : historyAfter s i h = { h with taken := h.taken ++ [v] } := by
  have hguard : (secretOpen s && s.nsym != 16) = true := by simpa [ho] using hn
  rw [historyAfter_of_pushedClass h hi, symbolValue, Option.elim_some, if_pos hguard]

theorem historyAfter_of_not_taken {c : CharClass} (hi : pushedClass i = some c)
    (hno : secretOpen s = true → ∀ v, c = .sym v → s.nsym = 16) : historyAfter s i h = h := by
  rw [historyAfter_of_pushedClass h hi]
  cases c with
  | sym v =>
    have hguard : ¬(secretOpen s && s.nsym != 16) = true := by simpa using fun ho => hno ho v rfl
    rw [symbolValue, Option.elim_some, if_neg hguard]
  | pad => rfl
  | invalid => rfl

theorem historyAfter_of_not_accepts (ha : accepts s.phase i = false) : historyAfter s i h = h := by
  rcases instr_kinds i with ⟨c, hc⟩ | rfl | ⟨m, rfl⟩ | rfl | ⟨c, rfl⟩ | hr | ⟨len, d, rfl⟩
  · rw [accepts_of_pushedClass hc] at ha
    refine historyAfter_of_not_taken h hc fun ho => ?_
    rw [((secretOpen_iff s).1 ho).1] at ha
    cases ha
  · rfl
  · exact if_pos (by simpa [accepts] using ha)
  · refine historyAfter_of_end h rfl fun ho => ?_
    rw [((secretOpen_iff s).1 ho).1] at ha
    cases ha
  · rfl
  · rcases hr with rfl | rfl | rfl <;> rfl
  · rfl

end History

/-! ### When no secret is being taken -/

theorem errorCode_ne_zero (e : ErrorName) : errorCode e ≠ 0 := by
  cases e <;> decide

theorem secretOpen_of_err_ne {s : State} (he : s.err ≠ 0) : secretOpen s = false :=
  Bool.eq_false_iff.2 fun ho => he ((secretOpen_iff s).1 ho).2.2

theorem secretOpen_of_generic {s : State} (hm : s.mode = .generic) : secretOpen s = false := by
  refine Bool.eq_false_iff.2 fun ho => ?_
  obtain ⟨-, hs, -⟩ := (secretOpen_iff s).1 ho
  rw [hm] at hs
  cases hs

/-- A transaction after which no secret is being taken has only to leave the key alone. -/
theorem keyTracks_of_closed {s t : State} {h : SecretHistory} (hk : KeyTracks s h) (hinv : Inv t) (hkey : t.key = s.key)
    (hvalid : t.keyValid = s.keyValid) (hclosed : secretOpen t = false) : KeyTracks t h where
  inv := hinv
  valid_key := by rw [hvalid, hkey]; exact hk.valid_key
  taken_count ho := by rw [hclosed] at ho; cases ho
  taken_bytes ho := by rw [hclosed] at ho; cases ho
  taken_bits ho := by rw [hclosed] at ho; cases ho

/-! ### While a secret is being taken -/

section Open

variable {s : State} {h : SecretHistory} (hk : KeyTracks s h) (ho : secretOpen s = true)

include hk ho

theorem nbits_eq_leftCount : s.nbits = leftCount h.taken := by
  obtain ⟨hp, hm, -⟩ := (secretOpen_iff s).1 ho
  apply BitVec.eq_of_toNat_eq
  rw [leftCount_toNat, hk.taken_count ho, nbits_of_nsym hk.inv hp hm]

theorem acc_eq_leftBits : s.acc = leftBits h.taken := by
  apply BitVec.eq_of_toNat_eq
  rw [leftBits_toNat, ← nbits_eq_leftCount hk ho]
  exact hk.taken_bits ho

theorem nbytes_eq_completeBytes_length : s.nbytes.toNat = (completeBytes h.taken).length := by
  rw [completeBytes_length, hk.taken_count ho]
  exact hk.inv.nbytes_of_nsym

theorem key_take_nbytes : s.key.toList.take s.nbytes.toNat = completeBytes h.taken := by
  have hn := nbytes_eq_completeBytes_length hk ho
  rw [completeBytes_length] at hn
  rw [hk.taken_bytes ho, hn, completeBytes]

end Open

/-- The bytes below the index stay, and the one written stands after them. -/
theorem take_succ_setIfInBounds (k : Key) {n : Nat} (hn : n < 10) (b : Byte) :
    (k.setIfInBounds n b).toList.take (n + 1) = k.toList.take n ++ [b] := by
  have hlen : n < (k.toList.set n b).length := by simpa using hn
  rw [Vector.toList_setIfInBounds, List.take_succ_eq_append_getElem hlen, List.getElem_set_self,
    List.take_set_of_le (Nat.le_refl n)]

/-- A state after the push of a symbol tracks the history with the symbol added, if its registers do. -/
theorem keyTracks_of_symbol {s t : State} {h : SecretHistory} {v : SymVal} (hk : KeyTracks s h) (ho : secretOpen s = true)
    (hinv : Inv t) (hopen : secretOpen t = true) (hn : s.nsym ≠ 16) (hnsym : t.nsym = s.nsym + 1)
    (hacc : t.acc = accAfter s.acc s.nbits v) (hnbits : t.nbits = nbitsAfter s.nbits)
    (hkey : t.key.toList.take t.nbytes.toNat =
      s.key.toList.take s.nbytes.toNat ++ (completedByte s.acc s.nbits v).toList) :
    KeyTracks t { h with taken := h.taken ++ [v] } := by
  have hcount := nbits_eq_leftCount hk ho
  have hbits := acc_eq_leftBits hk ho
  have htaken : (h.taken ++ [v]).length = t.nsym.toNat := by
    rw [hnsym, nsym_succ_toNat hk.inv hn, List.length_append, List.length_singleton, hk.taken_count ho]
  obtain ⟨hp, hm, -⟩ := (secretOpen_iff t).1 hopen
  refine ⟨hinv, ?valid, fun _ => htaken, fun _ => ?bytes, fun _ => ?bits⟩
  case valid =>
    intro hv
    rw [hinv.secret_no_key hp hm] at hv
    cases hv
  case bytes =>
    rw [hkey, key_take_nbytes hk ho, hbits, hcount, ← completeBytes_append, completeBytes, hinv.nbytes_of_nsym, htaken]
  case bits =>
    rw [hacc, hnbits, hbits, hcount, ← leftBits_append, ← leftCount_append, leftBits_toNat]

theorem keyTracks_secretSymbol {s : State} {h : SecretHistory} {v : SymVal} (hk : KeyTracks s h)
    (ho : secretOpen s = true) (hn : s.nsym ≠ 16) (hb : completedByte s.acc s.nbits v = none) :
    KeyTracks { acceptSymbol v s with nsym := s.nsym + 1 } { h with taken := h.taken ++ [v] } := by
  obtain ⟨hp, hm, -⟩ := (secretOpen_iff s).1 ho
  refine keyTracks_of_symbol hk ho (inv_secretSymbol hk.inv v hp hm hn hb) ho hn rfl rfl rfl ?_
  rw [hb, Option.toList_none, List.append_nil]
  rfl

theorem keyTracks_secretSymbolByte {s : State} {h : SecretHistory} {v : SymVal} {b : Byte} (hk : KeyTracks s h)
    (ho : secretOpen s = true) (hn : s.nsym ≠ 16) (hb : completedByte s.acc s.nbits v = some b) :
    KeyTracks (writeKeyByte b { acceptSymbol v s with nsym := s.nsym + 1 }) { h with taken := h.taken ++ [v] } := by
  obtain ⟨hp, hm, -⟩ := (secretOpen_iff s).1 ho
  refine keyTracks_of_symbol hk ho (inv_secretSymbolByte hk.inv v hp hm hn hb) ho hn rfl rfl rfl ?_
  rw [hb, Option.toList_some, ← take_succ_setIfInBounds s.key (nbytes_lt hk.inv hn) b, ← nbytes_succ_toNat hk.inv hn]
  rfl

theorem keyTracks_startDecode {s : State} {h : SecretHistory} (hk : KeyTracks s h) (m : Mode) :
    KeyTracks (startDecode m s) { h with taken := [] } := by
  have hinv := inv_startDecode hk.inv m
  refine ⟨hinv, ?valid, fun _ => ?count, fun _ => ?bytes, fun _ => ?bits⟩
  case valid =>
    cases m with
    | generic => exact hk.valid_key
    | secret => exact Bool.noConfusion
  case count => rw [startDecode_nsym]; rfl
  case bytes => rw [startDecode_nbytes]; rfl
  case bits => rw [startDecode_acc, startDecode_nbits]; rfl

/-- `B32_END` after the 16th symbol: what was taken is now what was loaded, and its 10 bytes fill `KEY`. -/
theorem keyTracks_endedLoaded {s : State} {h : SecretHistory} (hk : KeyTracks s h) (ho : secretOpen s = true)
    (hn : s.nsym = 16) (hinv : Inv (closeDecode { s with keyValid := true })) :
    KeyTracks (closeDecode { s with keyValid := true }) { h with loaded := h.taken } := by
  have hlen : h.taken.length = 16 := by rw [hk.taken_count ho, hn]; rfl
  have hbytes : s.nbytes.toNat = 10 := by rw [hk.inv.nbytes_of_nsym, hn]; rfl
  have hkey := hk.taken_bytes ho
  rw [hbytes, List.take_of_length_le (by simp)] at hkey
  exact ⟨hinv, fun _ => ⟨hlen, hkey⟩, Bool.noConfusion, Bool.noConfusion, Bool.noConfusion⟩

theorem Transition.keeps_keyTracks {i : Instr} {s t : State} {h : SecretHistory} (ht : Transition i s t)
    (hk : KeyTracks s h) : KeyTracks t (historyAfter s i h) := by
  have hinv := ht.keeps_inv hk.inv
  cases ht with
  | dropped ha =>
    rw [historyAfter_of_not_accepts h ha]
    exact { hk with inv := hinv }
  | nop hi => subst hi; exact hk
  | pushAfterError hi hp he =>
    rw [historyAfter_of_not_taken h hi fun ho => by rw [secretOpen_of_err_ne he] at ho; cases ho]
    exact hk
  | padSkipped hi =>
    rw [historyAfter_of_not_taken h hi fun _ _ => CharClass.noConfusion]
    exact hk
  | secretRefused hi _ _ _ hc =>
    rw [historyAfter_of_not_taken h hi fun _ => hc]
    exact keyTracks_of_closed hk hinv rfl rfl (secretOpen_of_err_ne (errorCode_ne_zero .invalidSecret))
  | characterRefused hi =>
    rw [historyAfter_of_not_taken h hi fun _ _ => CharClass.noConfusion]
    exact keyTracks_of_closed hk hinv rfl rfl (secretOpen_of_err_ne (errorCode_ne_zero .invalidCharacter))
  | secretSymbol hi hp hm he hn hb =>
    have ho := (secretOpen_iff s).2 ⟨hp, hm, he⟩
    rw [historyAfter_of_taken h hi ho hn]
    exact keyTracks_secretSymbol hk ho hn hb
  | secretSymbolByte hi hp hm he hn hb =>
    have ho := (secretOpen_iff s).2 ⟨hp, hm, he⟩
    rw [historyAfter_of_taken h hi ho hn]
    exact keyTracks_secretSymbolByte hk ho hn hb
  | genericSymbol hi _ hm | genericSymbolByte hi _ hm =>
    rw [historyAfter_of_not_taken h hi fun ho => by rw [secretOpen_of_generic hm] at ho; cases ho]
    exact keyTracks_of_closed hk hinv rfl rfl (secretOpen_of_generic hm)
  | started m hi hp =>
    rw [historyAfter_of_start h hi hp]
    exact keyTracks_startDecode hk m
  | endedLoaded hi hp hm he hn =>
    have ho := (secretOpen_iff s).2 ⟨hp, hm, he⟩
    rw [historyAfter_of_load h hi ho hn]
    exact keyTracks_endedLoaded hk ho hn hinv
  | endedBadGroup hi _ hm =>
    rw [historyAfter_of_end h hi fun ho => by rw [secretOpen_of_generic hm] at ho; cases ho]
    exact keyTracks_of_closed hk hinv rfl rfl rfl
  | endedShort hi _ _ _ hn =>
    rw [historyAfter_of_end h hi fun _ => hn]
    exact keyTracks_of_closed hk hinv rfl rfl rfl
  | ended hi _ hs =>
    have hclosed : secretOpen s ≠ true := by
      intro ho
      obtain ⟨-, hm, he⟩ := (secretOpen_iff s).1 ho
      exact hs hm he
    rw [historyAfter_of_end h hi fun ho => absurd ho hclosed]
    exact keyTracks_of_closed hk hinv rfl rfl rfl
  | requested c hi => subst hi; exact keyTracks_of_closed hk hinv rfl rfl rfl
  | keyMissing c hi => subst hi; exact keyTracks_of_closed hk hinv rfl rfl (secretOpen_of_err_ne (errorCode_ne_zero .keyDecodeFailure))
  | stored d hi => subst hi; exact keyTracks_of_closed hk hinv rfl rfl rfl
  | violated len d hi => subst hi; exact keyTracks_of_closed hk hinv rfl rfl rfl

end Sys2Proof.Machine

namespace Sys2Proof.Proofs

open Sys2Proof.Machine

/-- Settles O51: a symbol taken is added to the history and to the registers alike, and a load moves both to the valid key. -/
theorem keyIsTheLastLoadedSecretDecoded : Obligations.KeyIsTheLastLoadedSecretDecoded := by
  unfold Obligations.KeyIsTheLastLoadedSecretDecoded
  intro i s t h hk hexec
  exact (exec_transition hexec).keeps_keyTracks hk

end Sys2Proof.Proofs
end

section
/-! SUPPORT. Proofs of the statements about the pure contracts `b32decode` and `validSecret` (40_base32_decoder.md R90 to R92, R104;
30_encoding.md R67, R68). -/

namespace Sys2Proof.Machine

/-! ### The symbols of a string -/

@[simp] theorem symbolsOf_nil : symbolsOf [] = [] := rfl

theorem symbolsOf_cons_of_sym {ch : Byte} {v : SymVal} (h : classify ch = .sym v) (cs : List Byte) :
    symbolsOf (ch :: cs) = v :: symbolsOf cs := by
  simp [symbolsOf, h, symbolValue]

theorem symbolsOf_cons_of_pad {ch : Byte} (h : classify ch = .pad) (cs : List Byte) :
    symbolsOf (ch :: cs) = symbolsOf cs := by
  simp [symbolsOf, h, symbolValue]

theorem isSymbol_eq_true_iff (ch : Byte) : isSymbol ch = true ↔ ∃ v, classify ch = .sym v := by
  unfold isSymbol
  cases classify ch <;> simp [symbolValue]

theorem symbolsOf_length_of_all {cs : List Byte} (h : cs.all isSymbol = true) : (symbolsOf cs).length = cs.length := by
  rw [symbolsOf, List.filterMap_length_eq_length]
  exact List.all_eq_true.1 h

/-! ### The branches of `b32decode` -/

/-- Some character is `INVALID`. -/
def hasInvalid (cs : List Byte) : Bool := cs.any fun ch => classify ch = .invalid

theorem hasInvalid_eq_true_iff (cs : List Byte) : hasInvalid cs = true ↔ ∃ ch ∈ cs, classify ch = .invalid := by
  simp [hasInvalid]

theorem hasInvalid_eq_false_iff (cs : List Byte) : hasInvalid cs = false ↔ ∀ ch ∈ cs, classify ch ≠ .invalid := by
  simp [hasInvalid]

theorem partialBytes_of_bad {r : Nat} (h : r ∈ [1, 3, 6]) : partialBytes r = none := by
  simp only [List.mem_cons, List.not_mem_nil, or_false] at h
  rcases h with rfl | rfl | rfl <;> rfl

/-- The bytes of a trailing group are those its symbols complete (R91). -/
theorem partialBytes_of_good {r : Nat} (hr : r < 8) (h : r ∉ [1, 3, 6]) : partialBytes r = some (5 * r / 8) := by
  have hall : ∀ r < 8, r ∉ [1, 3, 6] → partialBytes r = some (5 * r / 8) := by decide
  exact hall r hr h

theorem b32decode_of_invalid {cs : List Byte} (h : hasInvalid cs = true) : b32decode cs = .err .invalidCharacter := if_pos h

theorem b32decode_of_badGroup {cs : List Byte} (h : hasInvalid cs = false) (hg : (symbolsOf cs).length % 8 ∈ [1, 3, 6]) :
    b32decode cs = .err .invalidPadding := by
  rw [b32decode, partialBytes_of_bad hg]
  exact if_neg (Bool.eq_false_iff.1 h)

theorem b32decode_of_good {cs : List Byte} (h : hasInvalid cs = false) (hg : (symbolsOf cs).length % 8 ∉ [1, 3, 6]) :
    b32decode cs = .ok (completeBytes (symbolsOf cs)) := by
  have hcount : (symbolsOf cs).length / 8 * 5 + 5 * ((symbolsOf cs).length % 8) / 8 = 5 * (symbolsOf cs).length / 8 := by
    omega
  rw [b32decode, partialBytes_of_good (Nat.mod_lt _ (by decide)) hg, completeBytes, ← hcount]
  exact if_neg (Bool.eq_false_iff.1 h)

/-- `b32decode` looks at the characters only through their symbols and whether one is `INVALID`. -/
theorem b32decode_congr {cs ds : List Byte} (hi : hasInvalid cs = hasInvalid ds) (hs : symbolsOf cs = symbolsOf ds) :
    b32decode cs = b32decode ds := by
  unfold b32decode
  unfold hasInvalid at hi
  rw [hi, hs]

theorem b32decode_eq_invalidCharacter_iff (cs : List Byte) :
    b32decode cs = .err .invalidCharacter ↔ hasInvalid cs = true := by
  refine ⟨fun hd => ?_, b32decode_of_invalid⟩
  by_contra h
  have h : hasInvalid cs = false := Bool.eq_false_iff.2 h
  by_cases hg : (symbolsOf cs).length % 8 ∈ [1, 3, 6]
  · rw [b32decode_of_badGroup h hg] at hd
    cases hd
  · rw [b32decode_of_good h hg] at hd
    cases hd

theorem b32decode_eq_invalidPadding_iff (cs : List Byte) :
    b32decode cs = .err .invalidPadding ↔ hasInvalid cs = false ∧ (symbolsOf cs).length % 8 ∈ [1, 3, 6] := by
  refine ⟨fun hd => ?_, fun ⟨h, hg⟩ => b32decode_of_badGroup h hg⟩
  cases h : hasInvalid cs with
  | true =>
    rw [b32decode_of_invalid h] at hd
    cases hd
  | false =>
    refine ⟨rfl, ?_⟩
    by_contra hg
    rw [b32decode_of_good h hg] at hd
    cases hd

theorem eq_completeBytes_of_b32decode_ok {cs out : List Byte} (hd : b32decode cs = .ok out) :
    out = completeBytes (symbolsOf cs) := by
  cases h : hasInvalid cs with
  | true =>
    rw [b32decode_of_invalid h] at hd
    cases hd
  | false =>
    by_cases hg : (symbolsOf cs).length % 8 ∈ [1, 3, 6]
    · rw [b32decode_of_badGroup h hg] at hd
      cases hd
    · rw [b32decode_of_good h hg] at hd
      exact (DecodeResult.ok.inj hd).symm

/-! ### A valid secret -/

theorem validSecret_eq_true_iff (cs : List Byte) :
    validSecret cs = true ↔ cs.length = 16 ∧ cs.all isSymbol = true := by
  rw [validSecret, Bool.and_eq_true, decide_eq_true_eq]

theorem symbolsOf_length_of_validSecret {cs : List Byte} (h : validSecret cs = true) : (symbolsOf cs).length = 16 := by
  obtain ⟨hlen, hall⟩ := (validSecret_eq_true_iff cs).1 h
  rw [symbolsOf_length_of_all hall, hlen]

theorem hasInvalid_of_all {cs : List Byte} (h : cs.all isSymbol = true) : hasInvalid cs = false := by
  rw [hasInvalid_eq_false_iff]
  intro ch hch
  obtain ⟨v, hv⟩ := (isSymbol_eq_true_iff ch).1 (List.all_eq_true.1 h ch hch)
  rw [hv]
  exact CharClass.noConfusion

/-- 16 symbols end in no partial group. -/
theorem b32decode_of_validSecret {cs : List Byte} (h : validSecret cs = true) :
    b32decode cs = .ok (completeBytes (symbolsOf cs)) := by
  obtain ⟨-, hall⟩ := (validSecret_eq_true_iff cs).1 h
  refine b32decode_of_good (hasInvalid_of_all hall) ?_
  rw [symbolsOf_length_of_validSecret h]
  decide

theorem completeBytes_length_of_validSecret {cs : List Byte} (h : validSecret cs = true) :
    (completeBytes (symbolsOf cs)).length = 10 := by
  rw [completeBytes_length, symbolsOf_length_of_validSecret h]

/-! ### Pads and case -/

theorem classify_normaliseCase (ch : Byte) : classify (normaliseCase ch) = classify ch := by
  have hidem : normaliseCase (normaliseCase ch) = normaliseCase ch := by
    by_cases h : 0x61 ≤ ch ∧ ch ≤ 0x7A
    · rw [normaliseCase_of_lower h]
      exact normaliseCase_of_not_lower (by bv_omega)
    · rw [normaliseCase_of_not_lower h, normaliseCase_of_not_lower h]
  unfold classify
  rw [hidem]

theorem isSymbol_normaliseCase (ch : Byte) : isSymbol (normaliseCase ch) = isSymbol ch := by
  rw [isSymbol, classify_normaliseCase, isSymbol]

theorem symbolsOf_map_normaliseCase (cs : List Byte) : symbolsOf (cs.map normaliseCase) = symbolsOf cs := by
  simp [symbolsOf, List.filterMap_map, classify_normaliseCase]

theorem hasInvalid_map_normaliseCase (cs : List Byte) : hasInvalid (cs.map normaliseCase) = hasInvalid cs := by
  simp [hasInvalid, List.any_map, Function.comp_def, classify_normaliseCase]

theorem symbolsOf_filter_pads (cs : List Byte) : symbolsOf (cs.filter fun ch => ch ≠ 0x3D) = symbolsOf cs := by
  rw [symbolsOf, List.filterMap_filter]
  apply List.filterMap_congr
  intro ch _
  by_cases h : ch = 0x3D
  · subst h; rfl
  · exact if_pos (decide_eq_true h)

theorem hasInvalid_filter_pads (cs : List Byte) : hasInvalid (cs.filter fun ch => ch ≠ 0x3D) = hasInvalid cs := by
  rw [hasInvalid, List.any_filter, hasInvalid]
  congr 1
  funext ch
  by_cases h : ch = 0x3D
  · subst h; rfl
  · rw [decide_eq_true h, Bool.true_and]

end Sys2Proof.Machine

namespace Sys2Proof.Proofs

open Sys2Proof.Machine

/-- Settles O56, branch by branch of `b32decode`. -/
theorem decodeLengthIsFiveEighths : Obligations.DecodeLengthIsFiveEighths := by
  unfold Obligations.DecodeLengthIsFiveEighths
  refine ⟨?invalid, ?padding, ?length, ?secret⟩
  case invalid =>
    intro cs
    rw [b32decode_eq_invalidCharacter_iff, hasInvalid_eq_true_iff]
  case padding =>
    intro cs
    rw [b32decode_eq_invalidPadding_iff, hasInvalid_eq_false_iff]
  case length =>
    intro cs out h
    rw [eq_completeBytes_of_b32decode_ok h, completeBytes_length]
  case secret =>
    intro cs h
    exact ⟨_, b32decode_of_validSecret h, completeBytes_length_of_validSecret h⟩

/-- Settles O57: neither change touches the symbols or makes a character `INVALID`. -/
theorem padsAndCaseDoNotChangeTheDecoding : Obligations.PadsAndCaseDoNotChangeTheDecoding := by
  unfold Obligations.PadsAndCaseDoNotChangeTheDecoding
  refine ⟨?pads, ?case, ?secretCase, ?secretPad⟩
  case pads => exact fun cs => b32decode_congr (hasInvalid_filter_pads cs) (symbolsOf_filter_pads cs)
  case case => exact fun cs => b32decode_congr (hasInvalid_map_normaliseCase cs) (symbolsOf_map_normaliseCase cs)
  case secretCase =>
    intro cs
    simp [validSecret, Function.comp_def, isSymbol_normaliseCase]
  case secretPad =>
    intro cs hpad
    refine Bool.eq_false_iff.2 fun h => ?_
    obtain ⟨-, hall⟩ := (validSecret_eq_true_iff cs).1 h
    have hsym : isSymbol 0x3D = true := List.all_eq_true.1 hall 0x3D hpad
    exact absurd hsym (by decide)

end Sys2Proof.Proofs
end

section
/-! SUPPORT. Proofs of the statements about a whole decode transaction (40_base32_decoder.md R101, R102, R105): the pushes of a string bring
the block to the state that the symbols of the string determine, and the end reports it. -/

namespace Sys2Proof.Machine

/-! ### Sequences of transactions -/

theorem execSeq_append {is js : List Instr} {s t : State} (h : execSeq is s = .next t) :
    execSeq (is ++ js) s = execSeq js t := by
  induction is generalizing s with
  | nil =>
    cases h
    rfl
  | cons i is ih =>
    obtain ⟨u, hu⟩ := exec_total i s
    rw [execSeq_cons_of_next hu] at h
    rw [List.cons_append, execSeq_cons_of_next hu, ih h]

/-- The pushes of a string. -/
def pushes (cs : List Byte) : List Instr := cs.map Instr.b32Push

theorem pushes_cons (ch : Byte) (cs : List Byte) : pushes (ch :: cs) = .b32Push ch :: pushes cs := rfl

/-- A transaction is its start, its pushes and its end (R93). -/
theorem execSeq_decodeTransaction {m : Mode} {cs : List Byte} {s t : State} (hs : s.phase ≠ .waitHmac)
    (hpushes : execSeq (pushes cs) (startDecode m s) = .next t) (ht : t.phase = .decoding) :
    execSeq (decodeTransaction m cs) s = .next (endDecode t) := by
  have haccepted : s.phase = .idle ∨ s.phase = .decoding := by
    cases hp : s.phase with
    | idle => exact .inl rfl
    | decoding => exact .inr rfl
    | waitHmac => exact absurd hp hs
  rw [decodeTransaction, execSeq_cons_of_next (exec_b32Start_of_accepted haccepted m)]
  refine (execSeq_append hpushes).trans ?_
  rw [execSeq_cons_of_next (exec_b32End_of_decoding ht), execSeq]

/-- After the first error the rest of the string changes nothing (R96). -/
theorem execSeq_pushes_of_err_ne {s : State} (hp : s.phase = .decoding) (he : s.err ≠ 0) (cs : List Byte) :
    execSeq (pushes cs) s = .next s := by
  induction cs with
  | nil => rfl
  | cons ch cs ih =>
    have hpush : exec (.b32Push ch) s = .next s := pushClass_of_err_ne hp he (classify ch)
    rw [pushes_cons, execSeq_cons_of_next hpush, ih]

/-! ### A generic transaction -/

/-- `s` with the symbols `syms` taken in generic mode: their complete bytes have been emitted. -/
def genericAt (s : State) (syms : List SymVal) : State :=
  { s with
    acc := leftBits syms, nbits := leftCount syms, gpos := BitVec.ofNat 3 syms.length,
    events := s.events ++ (completeBytes syms).map Event.decByte }

theorem genericAt_nil {s : State} (ha : s.acc = 0) (hn : s.nbits = 0) (hg : s.gpos = 0) : genericAt s [] = s := by
  have hacc : leftBits [] = s.acc := ha.symm
  have hnbits : leftCount [] = s.nbits := hn.symm
  have hgpos : BitVec.ofNat 3 ([] : List SymVal).length = s.gpos := hg.symm
  have hevents : s.events ++ (completeBytes []).map Event.decByte = s.events := List.append_nil _
  rw [genericAt, hacc, hnbits, hgpos, hevents]

/-- A counter that is as wide as it may be counts one more. -/
theorem ofNat_length_append {α : Type} (w : Nat) (xs : List α) (x : α) :
    BitVec.ofNat w (xs ++ [x]).length = BitVec.ofNat w xs.length + 1 := by
  rw [List.length_append, List.length_singleton, BitVec.ofNat_add]; rfl

/-- The characters before the first `INVALID` one. -/
def validPrefix (cs : List Byte) : List Byte := cs.takeWhile fun ch => classify ch ≠ .invalid

theorem validPrefix_cons_of_valid {ch : Byte} (h : classify ch ≠ .invalid) (cs : List Byte) :
    validPrefix (ch :: cs) = ch :: validPrefix cs :=
  List.takeWhile_cons_of_pos (decide_eq_true h)

theorem validPrefix_cons_of_invalid {ch : Byte} (h : classify ch = .invalid) (cs : List Byte) :
    validPrefix (ch :: cs) = [] :=
  List.takeWhile_cons_of_neg (by simpa using h)

theorem validPrefix_of_no_invalid {cs : List Byte} (h : hasInvalid cs = false) : validPrefix cs = cs := by
  rw [validPrefix, List.takeWhile_eq_self_iff]
  exact fun ch hch => decide_eq_true ((hasInvalid_eq_false_iff cs).1 h ch hch)

theorem hasInvalid_cons_of_valid {ch : Byte} (h : classify ch ≠ .invalid) (cs : List Byte) :
    hasInvalid (ch :: cs) = hasInvalid cs := by
  rw [hasInvalid, List.any_cons, decide_eq_false h, Bool.false_or, hasInvalid]

theorem hasInvalid_cons_of_invalid {ch : Byte} (h : classify ch = .invalid) (cs : List Byte) :
    hasInvalid (ch :: cs) = true := by
  rw [hasInvalid, List.any_cons, decide_eq_true h, Bool.true_or]

section Generic

variable {s : State} (hp : s.phase = .decoding) (hm : s.mode = .generic) (he : s.err = 0)

include hp hm he

theorem exec_push_genericAt {ch : Byte} {v : SymVal} (hc : classify ch = .sym v) (syms : List SymVal) :
    exec (.b32Push ch) (genericAt s syms) = .next (genericAt s (syms ++ [v])) := by
  have hpush : exec (.b32Push ch) (genericAt s syms) = .next (pushGeneric (.sym v) (genericAt s syms)) := by
    rw [exec_b32Push, hc, pushClass_of_generic (s := genericAt s syms) hp he hm]
  have hbytes := completeBytes_append syms v
  rw [hpush]
  congr 1
  cases hb : completedByte (leftBits syms) (leftCount syms) v with
  | none =>
    rw [hb] at hbytes
    simp only [pushGeneric, genericAt, hb, acceptSymbol, leftBits_append, leftCount_append, ofNat_length_append, hbytes,
      Option.toList_none, List.append_nil]
  | some b =>
    rw [hb] at hbytes
    simp only [pushGeneric, genericAt, hb, acceptSymbol, emit, leftBits_append, leftCount_append, ofNat_length_append,
      hbytes, Option.toList_some, List.map_append, List.map_cons, List.map_nil, List.append_assoc]

/-- The pushes of a string in generic mode: the symbols before the first `INVALID` character are taken, and that character raises. -/
theorem execSeq_pushes_genericAt (cs : List Byte) (syms : List SymVal) :
    execSeq (pushes cs) (genericAt s syms) =
      .next (if hasInvalid cs then raise .invalidCharacter (genericAt s (syms ++ symbolsOf (validPrefix cs)))
        else genericAt s (syms ++ symbolsOf (validPrefix cs))) := by
  induction cs generalizing syms with
  | nil =>
    rw [validPrefix, List.takeWhile_nil, symbolsOf_nil, List.append_nil]
    rfl
  | cons ch cs ih =>
    rw [pushes_cons]
    cases hc : classify ch with
    | sym v =>
      have hv : classify ch ≠ .invalid := by rw [hc]; exact CharClass.noConfusion
      rw [execSeq_cons_of_next (exec_push_genericAt hp hm he hc syms), ih, validPrefix_cons_of_valid hv,
        hasInvalid_cons_of_valid hv, symbolsOf_cons_of_sym hc, List.append_assoc, List.singleton_append]
    | pad =>
      have hv : classify ch ≠ .invalid := by rw [hc]; exact CharClass.noConfusion
      have hpush : exec (.b32Push ch) (genericAt s syms) = .next (genericAt s syms) := by
        rw [exec_b32Push, hc, pushClass_of_generic (s := genericAt s syms) hp he hm, pushGeneric]
      rw [execSeq_cons_of_next hpush, ih, validPrefix_cons_of_valid hv, hasInvalid_cons_of_valid hv,
        symbolsOf_cons_of_pad hc]
    | invalid =>
      have hpush : exec (.b32Push ch) (genericAt s syms) = .next (raise .invalidCharacter (genericAt s syms)) := by
        rw [exec_b32Push, hc, pushClass_of_generic (s := genericAt s syms) hp he hm, pushGeneric]
      rw [execSeq_cons_of_next hpush, validPrefix_cons_of_invalid hc, hasInvalid_cons_of_invalid hc, symbolsOf_nil,
        List.append_nil, if_pos rfl]
      exact execSeq_pushes_of_err_ne (s := raise .invalidCharacter (genericAt s syms)) hp
        (errorCode_ne_zero .invalidCharacter) cs

end Generic

/-- The code that ends `DECODE`: 0, or that of the error of `b32decode` (R101). -/
def decodeCode (cs : List Byte) : BitVec 4 :=
  match b32decode cs with
  | .ok _ => 0
  | .err e => errorCode e

theorem decodeCode_of_ok {cs out : List Byte} (h : b32decode cs = .ok out) : decodeCode cs = 0 := by
  rw [decodeCode, h]

theorem decodeCode_of_err {cs : List Byte} {e : ErrorName} (h : b32decode cs = .err e) : decodeCode cs = errorCode e := by
  rw [decodeCode, h]

/-- The state after `DECODE` of a string. -/
def decodedState (s : State) (cs : List Byte) : State :=
  closeDecode { genericAt (startDecode .generic s) (symbolsOf (validPrefix cs)) with err := decodeCode cs }

/-- `B32_END` after the pushes of a string: the trailing group is the symbol count modulo 8. -/
theorem endDecode_genericAt {s : State} {cs : List Byte} (h : hasInvalid cs = false) :
    endDecode (genericAt (startDecode .generic s) (symbolsOf cs)) =
      closeDecode { genericAt (startDecode .generic s) (symbolsOf cs) with err := decodeCode cs } := by
  have hgroup : badTrailingGroup (genericAt (startDecode .generic s) (symbolsOf cs)).gpos = true ↔
      (symbolsOf cs).length % 8 ∈ [1, 3, 6] := by
    rw [badTrailingGroup_iff, genericAt, BitVec.toNat_ofNat]
  rw [endDecode_of_generic rfl, endGeneric]
  by_cases hg : (symbolsOf cs).length % 8 ∈ [1, 3, 6]
  · rw [if_pos ⟨rfl, hgroup.2 hg⟩, decodeCode_of_err (b32decode_of_badGroup h hg)]
    rfl
  · rw [if_neg fun hbad => hg (hgroup.1 hbad.2), decodeCode_of_ok (b32decode_of_good h hg)]
    rfl

theorem execSeq_decodeString {s : State} (hs : s.phase ≠ .waitHmac) (cs : List Byte) :
    execSeq (decodeString cs) s = .next (decodedState s cs) := by
  have hstart : genericAt (startDecode .generic s) [] = startDecode .generic s := genericAt_nil rfl rfl rfl
  have hpushes := execSeq_pushes_genericAt (s := startDecode .generic s) rfl rfl rfl cs []
  rw [hstart, List.nil_append] at hpushes
  rw [decodeString, decodedState]
  cases h : hasInvalid cs with
  | true =>
    rw [h, if_pos rfl] at hpushes
    rw [execSeq_decodeTransaction hs hpushes rfl, decodeCode_of_err (b32decode_of_invalid h)]
    rfl
  | false =>
    rw [h, if_neg Bool.false_ne_true] at hpushes
    rw [execSeq_decodeTransaction hs hpushes rfl, validPrefix_of_no_invalid h, endDecode_genericAt h]

theorem decodedState_events (s : State) (cs : List Byte) :
    (decodedState s cs).events =
      s.events ++ ((completeBytes (symbolsOf (validPrefix cs))).map Event.decByte ++ [.decDone (decodeCode cs)]) :=
  List.append_assoc _ _ _

/-! ### A secret transaction -/

/-- The bytes `bs` in `KEY`, the rest of it zero. -/
def keyOf (bs : List Byte) : Key := Vector.ofFn fun i => bs.getD i.val 0

theorem keyOf_append (bs : List Byte) (b : Byte) : keyOf (bs ++ [b]) = (keyOf bs).setIfInBounds bs.length b := by
  ext i hi
  rw [Vector.getElem_setIfInBounds hi, keyOf, keyOf, Vector.getElem_ofFn, Vector.getElem_ofFn]
  rcases Nat.lt_trichotomy i bs.length with h | h | h
  · rw [if_neg (Nat.ne_of_gt h), List.getD_append _ _ _ _ h]
  · subst h
    rw [if_pos rfl, List.getD_append_right _ _ _ _ (Nat.le_refl _), Nat.sub_self, List.getD_cons_zero]
  · rw [if_neg (Nat.ne_of_lt h), List.getD_eq_default _ _ (by simpa using h), List.getD_eq_default _ _ (Nat.le_of_lt h)]

theorem keyOf_toList {bs : List Byte} (h : bs.length = 10) : (keyOf bs).toList = bs := by
  rw [keyOf, Vector.toList_ofFn]
  apply List.ext_getElem
  · rw [List.length_ofFn, h]
  · intro i _ hi
    rw [List.getElem_ofFn, List.getD_eq_getElem _ _ hi]

/-- `s` with the symbols `syms` taken in secret mode: their complete bytes stand in `KEY`. -/
def secretAt (s : State) (syms : List SymVal) : State :=
  { s with
    acc := leftBits syms, nbits := leftCount syms, gpos := BitVec.ofNat 3 syms.length,
    nsym := BitVec.ofNat 5 syms.length, nbytes := BitVec.ofNat 4 (completeBytes syms).length,
    key := keyOf (completeBytes syms) }

theorem secretAt_nil (s : State) : secretAt (startDecode .secret s) [] = startDecode .secret s := rfl

theorem secretAt_nsym_eq_iff (s : State) {syms : List SymVal} (h : syms.length ≤ 16) :
    (secretAt s syms).nsym = 16 ↔ syms.length = 16 := by
  have htoNat : (secretAt s syms).nsym.toNat = syms.length := by
    rw [secretAt, BitVec.toNat_ofNat]
    omega
  rw [← BitVec.toNat_inj, htoNat]
  rfl

theorem secretAt_nbytes_toNat (s : State) {syms : List SymVal} (h : syms.length ≤ 16) :
    (secretAt s syms).nbytes.toNat = (completeBytes syms).length := by
  have hlen := completeBytes_length syms
  rw [secretAt, BitVec.toNat_ofNat]
  omega

/-- A symbol before the 17th, shifted in. -/
theorem takeSecretSymbol_secretAt (s : State) {syms : List SymVal} (h : syms.length ≤ 16) (v : SymVal) :
    takeSecretSymbol v (secretAt s syms) = secretAt s (syms ++ [v]) := by
  have hbytes := completeBytes_append syms v
  have hindex := secretAt_nbytes_toNat s h
  cases hb : completedByte (leftBits syms) (leftCount syms) v with
  | none =>
    rw [hb, Option.toList_none, List.append_nil] at hbytes
    simp only [takeSecretSymbol, secretAt, hb, acceptSymbol, leftBits_append, leftCount_append, ofNat_length_append, hbytes]
  | some b =>
    rw [hb, Option.toList_some] at hbytes
    simp only [secretAt] at hindex
    simp only [takeSecretSymbol, secretAt, hb, acceptSymbol, writeKeyByte, leftBits_append, leftCount_append,
      ofNat_length_append, hbytes, keyOf_append, hindex]

section Secret

variable {s : State} (hp : s.phase = .decoding) (hm : s.mode = .secret) (he : s.err = 0)

include hp hm he

theorem exec_push_secretAt {ch : Byte} {v : SymVal} (hc : classify ch = .sym v) {syms : List SymVal}
    (h : syms.length < 16) : exec (.b32Push ch) (secretAt s syms) = .next (secretAt s (syms ++ [v])) := by
  have hn : (secretAt s syms).nsym ≠ 16 := fun hn => h.ne ((secretAt_nsym_eq_iff s h.le).1 hn)
  rw [exec_b32Push, hc, pushClass_of_secret (s := secretAt s syms) hp he hm, pushSecret, if_neg hn,
    takeSecretSymbol_secretAt s h.le]

/-- A character that is no symbol, or a 17th symbol, and then the rest of the string. -/
theorem execSeq_pushes_of_refused {ch : Byte} (cs : List Byte) {syms : List SymVal} (h : syms.length ≤ 16)
    (hc : isSymbol ch = true → syms.length = 16) :
    execSeq (pushes (ch :: cs)) (secretAt s syms) = .next (raise .invalidSecret (secretAt s syms)) := by
  have hpush : exec (.b32Push ch) (secretAt s syms) = .next (raise .invalidSecret (secretAt s syms)) := by
    rw [exec_b32Push, pushClass_of_secret (s := secretAt s syms) hp he hm]
    cases hclass : classify ch with
    | sym v =>
      have hfull := (secretAt_nsym_eq_iff s h).2 (hc ((isSymbol_eq_true_iff ch).2 ⟨v, hclass⟩))
      rw [pushSecret, if_pos hfull]
    | pad => rfl
    | invalid => rfl
  rw [pushes_cons, execSeq_cons_of_next hpush]
  exact execSeq_pushes_of_err_ne (s := raise .invalidSecret (secretAt s syms)) hp (errorCode_ne_zero .invalidSecret) cs

theorem execSeq_pushes_secretAt {cs : List Byte} (hall : cs.all isSymbol = true) {syms : List SymVal}
    (hlen : syms.length + cs.length ≤ 16) :
    execSeq (pushes cs) (secretAt s syms) = .next (secretAt s (syms ++ symbolsOf cs)) := by
  induction cs generalizing syms with
  | nil =>
    rw [symbolsOf_nil, List.append_nil]
    rfl
  | cons ch cs ih =>
    rw [List.all_cons, Bool.and_eq_true] at hall
    rw [List.length_cons] at hlen
    obtain ⟨v, hv⟩ := (isSymbol_eq_true_iff ch).1 hall.1
    have hrest : (syms ++ [v]).length + cs.length ≤ 16 := by
      rw [List.length_append, List.length_singleton]
      omega
    rw [pushes_cons, execSeq_cons_of_next (exec_push_secretAt hp hm he hv (by omega)), ih hall.2 hrest,
      symbolsOf_cons_of_sym hv, List.append_assoc, List.singleton_append]

/-- A string with a character that is no symbol, or with too many symbols, meets `InvalidSecret` on the way. -/
theorem execSeq_pushes_secretAt_refused {cs : List Byte} {syms : List SymVal} (h : syms.length ≤ 16)
    (hbad : ¬(cs.all isSymbol = true ∧ syms.length + cs.length ≤ 16)) :
    ∃ syms', execSeq (pushes cs) (secretAt s syms) = .next (raise .invalidSecret (secretAt s syms')) := by
  induction cs generalizing syms with
  | nil => exact absurd ⟨rfl, h⟩ hbad
  | cons ch cs ih =>
    by_cases hc : isSymbol ch = true ∧ syms.length < 16
    · obtain ⟨v, hv⟩ := (isSymbol_eq_true_iff ch).1 hc.1
      have hlen : (syms ++ [v]).length = syms.length + 1 := by rw [List.length_append, List.length_singleton]
      rw [List.all_cons, hc.1, Bool.true_and, List.length_cons] at hbad
      rw [pushes_cons, execSeq_cons_of_next (exec_push_secretAt hp hm he hv hc.2)]
      exact ih (by omega) (by rw [hlen, Nat.add_right_comm, Nat.add_assoc]; exact hbad)
    · refine ⟨syms, execSeq_pushes_of_refused hp hm he cs h fun hsym => ?_⟩
      have hnlt : ¬syms.length < 16 := fun hlt => hc ⟨hsym, hlt⟩
      omega

end Secret

/-! ### The end of `LOAD_SECRET` -/

theorem endDecode_of_loaded {s : State} (hm : s.mode = .secret) (he : s.err = 0) (hn : s.nsym = 16) :
    endDecode s = closeDecode { s with keyValid := true } := by
  rw [endDecode_of_secret hm, endSecret, if_pos he, if_pos hn]

theorem endDecode_of_short {s : State} (hm : s.mode = .secret) (he : s.err = 0) (hn : s.nsym ≠ 16) :
    endDecode s = closeDecode (raise .invalidSecret s) := by
  rw [endDecode_of_secret hm, endSecret, if_pos he, if_neg hn]

theorem endDecode_of_secret_error {s : State} (hm : s.mode = .secret) (he : s.err ≠ 0) : endDecode s = closeDecode s := by
  rw [endDecode_of_secret hm, endSecret, if_neg he]

theorem execSeq_loadSecret_of_valid {s : State} (hs : s.phase ≠ .waitHmac) {cs : List Byte} (h : validSecret cs = true) :
    execSeq (loadSecret cs) s =
      .next (closeDecode { secretAt (startDecode .secret s) (symbolsOf cs) with keyValid := true }) := by
  obtain ⟨hlen, hall⟩ := (validSecret_eq_true_iff cs).1 h
  have hsyms := symbolsOf_length_of_validSecret h
  have hpushes := execSeq_pushes_secretAt (s := startDecode .secret s) rfl rfl rfl hall (syms := [])
    (by rw [hlen, List.length_nil])
  rw [secretAt_nil, List.nil_append] at hpushes
  have hn := (secretAt_nsym_eq_iff (startDecode .secret s) hsyms.le).2 hsyms
  rw [loadSecret, execSeq_decodeTransaction hs hpushes rfl, endDecode_of_loaded rfl rfl hn]

theorem execSeq_loadSecret_of_invalid {s : State} (hs : s.phase ≠ .waitHmac) {cs : List Byte}
    (h : validSecret cs = false) :
    ∃ syms, execSeq (loadSecret cs) s =
      .next (closeDecode (raise .invalidSecret (secretAt (startDecode .secret s) syms))) := by
  have hinvalid : ¬(cs.length = 16 ∧ cs.all isSymbol = true) := by
    rw [← validSecret_eq_true_iff, h]
    exact Bool.false_ne_true
  by_cases hfits : cs.all isSymbol = true ∧ ([] : List SymVal).length + cs.length ≤ 16
  · obtain ⟨hall, hlen⟩ := hfits
    have hpushes := execSeq_pushes_secretAt (s := startDecode .secret s) rfl rfl rfl hall hlen
    rw [secretAt_nil, List.nil_append] at hpushes
    rw [List.length_nil, Nat.zero_add] at hlen
    have hsyms := symbolsOf_length_of_all hall
    have hn : (secretAt (startDecode .secret s) (symbolsOf cs)).nsym ≠ 16 := by
      rw [Ne, secretAt_nsym_eq_iff _ (hsyms.trans_le hlen), hsyms]
      exact fun h16 => hinvalid ⟨h16, hall⟩
    refine ⟨symbolsOf cs, ?_⟩
    rw [loadSecret, execSeq_decodeTransaction hs hpushes rfl, endDecode_of_short rfl rfl hn]
  · obtain ⟨syms, hpushes⟩ := execSeq_pushes_secretAt_refused (s := startDecode .secret s) rfl rfl rfl
      (syms := []) (Nat.zero_le 16) hfits
    rw [secretAt_nil] at hpushes
    refine ⟨syms, ?_⟩
    rw [loadSecret, execSeq_decodeTransaction hs hpushes rfl,
      endDecode_of_secret_error (s := raise .invalidSecret _) rfl (errorCode_ne_zero .invalidSecret)]

end Sys2Proof.Machine

namespace Sys2Proof.Proofs

open Sys2Proof.Machine

/-- Settles O52: the end reports what `b32decode` says of the string, and the bytes are those of its symbols. -/
theorem genericTransactionComputesDecode : Obligations.GenericTransactionComputesDecode := by
  unfold Obligations.GenericTransactionComputesDecode
  intro s cs hs
  refine ⟨decodedState s cs, completeBytes (symbolsOf (validPrefix cs)), decodeCode cs, execSeq_decodeString hs cs,
    decodedState_events s cs, rfl, rfl, ?ok, fun _ => decodeCode_of_err, rfl, rfl, rfl, rfl, rfl, rfl, rfl, rfl⟩
  case ok =>
    intro out h
    have hvalid : hasInvalid cs = false := by
      refine Bool.eq_false_iff.2 fun hi => ?_
      rw [b32decode_of_invalid hi] at h
      cases h
    rw [validPrefix_of_no_invalid hvalid]
    exact ⟨decodeCode_of_ok h, (eq_completeBytes_of_b32decode_ok h).symm⟩

/-- Settles O53: the symbols taken are those before the first `INVALID` character, and each complete byte was emitted. -/
theorem genericTransactionStreamsTheSymbolsBeforeAnError :
    Obligations.GenericTransactionStreamsTheSymbolsBeforeAnError := by
  unfold Obligations.GenericTransactionStreamsTheSymbolsBeforeAnError
  intro s cs hs
  exact ⟨decodedState s cs, decodeCode cs, execSeq_decodeString hs cs, decodedState_events s cs⟩

/-- Settles O54: 16 symbols fill `KEY` with their 10 bytes; any other string ends with `InvalidSecret`. -/
theorem secretTransactionLoadsTheKey : Obligations.SecretTransactionLoadsTheKey := by
  unfold Obligations.SecretTransactionLoadsTheKey
  intro s cs hs
  cases h : validSecret cs with
  | true =>
    have hkey : (keyOf (completeBytes (symbolsOf cs))).toList = completeBytes (symbolsOf cs) :=
      keyOf_toList (completeBytes_length_of_validSecret h)
    refine ⟨_, execSeq_loadSecret_of_valid hs h, rfl, rfl, fun _ => ⟨rfl, rfl, rfl, ?_⟩, Bool.noConfusion, rfl, rfl, rfl, rfl,
      rfl, rfl⟩
    rw [b32decode_of_validSecret h]
    exact congrArg _ hkey.symm
  | false =>
    obtain ⟨syms, hrun⟩ := execSeq_loadSecret_of_invalid hs h
    exact ⟨_, hrun, rfl, rfl, Bool.noConfusion, fun _ => ⟨rfl, rfl, rfl⟩, rfl, rfl, rfl, rfl, rfl, rfl⟩

end Sys2Proof.Proofs
end
